-- ==== Sys2Proof/Word.lean ====
section
/-!
DEFINITION. Bytes, command words and the 16-byte block of the AES engine (00_scope.md R12, R13;
42_aes.md R105).
-/
namespace Sys2Proof

/-- A byte, an unsigned 8-bit value (00_scope.md R12). -/
abbrev Byte := BitVec 8

/-- A 32-bit command word (30_encoding.md R61). It has no byte order (20_memory.md R54). -/
abbrev CommandWord := BitVec 32

/-- One column of the AES state: the bytes of rows 0 to 3 (42_aes.md R105). Also one word `w[i]` of the
key expansion (42_aes.md R108). -/
structure Column where
  r0 : Byte
  r1 : Byte
  r2 : Byte
  r3 : Byte
deriving DecidableEq, Repr

/-- A 16-byte string held as a 4 by 4 byte state, column-major: `st[r][c] = b[r + 4*c]`
(42_aes.md R105; 20_memory.md R53). Byte `i` of the string is row `i mod 4` of column `i div 4`. -/
structure Block where
  c0 : Column
  c1 : Column
  c2 : Column
  c3 : Column
deriving DecidableEq, Repr

end Sys2Proof
end

