-- ==== Sys2Proof/Syntax.lean ====
section
/-!
DEFINITION. The commands of the block (30_encoding.md R64), the host's actions (30_encoding.md R76;
70_reset_and_hazards.md R178) and the lines of an assembler program (30_encoding.md R75, R77).
-/
namespace Sys2Proof

/-- The 19 commands of the opcode map (30_encoding.md R64). A command whose row says "imm" carries its
IMM8 operand, a byte used as it is (30_encoding.md R63). -/
inductive Instr where
  | nop
  | crc8
  | crclut (imm : Byte)
  | movoi
  | lenc (imm : Byte)
  | lencr
  | ldec (imm : Byte)
  | ldecs
  | kload
  | kclr
  | aesenc
  | aesdec
  | fparse
  | fdata
  | finit
  | fsetcmd (imm : Byte)
  | fsetef (imm : Byte)
  | fbuild
  | cfgw (imm : Byte)
deriving DecidableEq, Repr

/-- The names of the architectural registers, all host-readable (10_state.md R19). -/
inductive RegName where
  | ibuf | ilen | obuf | olen | key | kvalid | cfg | status | erracc
  | fstate | fleg | fhdr | fpt | fpv | fscene | fgid | foid | fcmd | fcmdv | fef
  | fplen | fpay | fcrcrx | fcrccalc | fcrcok | flvar | fdone | fplain
deriving DecidableEq, Repr

/-- What the host gets from READ: a number of the register's width, or a byte string. -/
inductive RegValue where
  | bits (width value : Nat)
  | bytes (s : List Byte)
deriving DecidableEq, Repr

/-- The four things the host may do (70_reset_and_hazards.md R178; 30_encoding.md R76). -/
inductive HostAction where
  | load (s : List Byte)
  | issue (cw : CommandWord)
  | read (r : RegName)
  | reset
deriving DecidableEq, Repr

/-- One line of an assembler program: a command by its opcode with its operand as written
(30_encoding.md R75), a host action (R76), or a pseudo-instruction (R77). Numbers are as the text gives
them; WellFormed.lean says which are in range. -/
inductive SourceLine where
  | command (opcode : Byte) (operand : Option Nat)
  | load (s : List Byte)
  | reset
  | read (r : RegName)
  | setkey (s : List Byte)
  | desc (pt pv scene gid oid : Nat)
  | strict
  | nocrc
  | parse (s : List Byte)
deriving DecidableEq, Repr

end Sys2Proof
end

