-- ==== Sys2Proof/Decode.lean ====
section
/-!
DEFINITION. The command word's fields, the opcode map, the decoder and the encoder (30_encoding.md R61 to
R68).
-/
namespace Sys2Proof

/-- OP, bits 7:0 (30_encoding.md R62). -/
def opField (cw : CommandWord) : Byte := cw.extractLsb' 0 8

/-- IMM8, bits 15:8 (30_encoding.md R62, R63). -/
def immField (cw : CommandWord) : Byte := cw.extractLsb' 8 8

/-- RSV, bits 31:16 (30_encoding.md R62). -/
def rsvField (cw : CommandWord) : BitVec 16 := cw.extractLsb' 16 16

/-- A row of the opcode map: IMM8 says "0", or IMM8 says "imm" (30_encoding.md R64). -/
inductive OpcodeRow where
  | zero (i : Instr)
  | imm (mk : Byte → Instr)

/-- The opcode map (30_encoding.md R64). -/
def opcodeRow (op : Byte) : Option OpcodeRow :=
  match op.toNat with
  | 0x00 => some (.zero .nop)
  | 0x01 => some (.zero .crc8)
  | 0x02 => some (.imm .crclut)
  | 0x03 => some (.zero .movoi)
  | 0x10 => some (.imm .lenc)
  | 0x11 => some (.zero .lencr)
  | 0x12 => some (.imm .ldec)
  | 0x13 => some (.zero .ldecs)
  | 0x20 => some (.zero .kload)
  | 0x21 => some (.zero .kclr)
  | 0x22 => some (.zero .aesenc)
  | 0x23 => some (.zero .aesdec)
  | 0x30 => some (.zero .fparse)
  | 0x31 => some (.zero .fdata)
  | 0x32 => some (.zero .finit)
  | 0x33 => some (.imm .fsetcmd)
  | 0x34 => some (.imm .fsetef)
  | 0x35 => some (.zero .fbuild)
  | 0x40 => some (.imm .cfgw)
  | _ => none

/-- Why a word is illegal: the three cases of 30_encoding.md R66. Each ends in ILLEGAL_COMMAND. -/
inductive IllegalWord where
  /-- RSV is nonzero. -/
  | reservedBits
  /-- OP is none of the 19 values. -/
  | unusedOpcode
  /-- IMM8 is nonzero for a command whose row says "0". -/
  | strayImmediate
deriving DecidableEq, Repr

/-- `decode(cw)`, its checks in the order of 30_encoding.md R65. -/
def decode (cw : CommandWord) : Except IllegalWord Instr :=
  if rsvField cw ≠ 0#16 then .error .reservedBits
  else
    match opcodeRow (opField cw) with
    | none => .error .unusedOpcode
    | some (.zero i) => if immField cw ≠ 0#8 then .error .strayImmediate else .ok i
    | some (.imm mk) => .ok (mk (immField cw))

/-- The opcode of a command (30_encoding.md R64). -/
def Instr.opcode : Instr → Byte
  | .nop => 0x00#8
  | .crc8 => 0x01#8
  | .crclut _ => 0x02#8
  | .movoi => 0x03#8
  | .lenc _ => 0x10#8
  | .lencr => 0x11#8
  | .ldec _ => 0x12#8
  | .ldecs => 0x13#8
  | .kload => 0x20#8
  | .kclr => 0x21#8
  | .aesenc => 0x22#8
  | .aesdec => 0x23#8
  | .fparse => 0x30#8
  | .fdata => 0x31#8
  | .finit => 0x32#8
  | .fsetcmd _ => 0x33#8
  | .fsetef _ => 0x34#8
  | .fbuild => 0x35#8
  | .cfgw _ => 0x40#8

/-- The IMM8 byte of a command: its operand, or 0 where the row says "0" (30_encoding.md R64). -/
def Instr.immediate : Instr → Byte
  | .nop => 0#8
  | .crc8 => 0#8
  | .crclut imm => imm
  | .movoi => 0#8
  | .lenc imm => imm
  | .lencr => 0#8
  | .ldec imm => imm
  | .ldecs => 0#8
  | .kload => 0#8
  | .kclr => 0#8
  | .aesenc => 0#8
  | .aesdec => 0#8
  | .fparse => 0#8
  | .fdata => 0#8
  | .finit => 0#8
  | .fsetcmd imm => imm
  | .fsetef imm => imm
  | .fbuild => 0#8
  | .cfgw imm => imm

/-- A word from an opcode and an immediate, `zext_32(OP) | (imm << 8)` (30_encoding.md R75). -/
def assembleWord (op imm : Byte) : CommandWord := op.zeroExtend 32 ||| (imm.zeroExtend 32 <<< 8)

/-- The command word of a command (30_encoding.md R62, R64, R75). -/
def encode (i : Instr) : CommandWord := assembleWord i.opcode i.immediate

/-- The 32-bit word whose low `nbits` bits are those of `w` and whose other bits are 0. LOG 21. -/
def tableWord (nbits w : Nat) : CommandWord := BitVec.ofNat 32 (w % 2 ^ nbits)

/-- The command the decoder reads from a word numbered as spec/opcode_table.json numbers it: the word
crosses the command port as one 32-bit value (20_memory.md R54), so the numbering is the word's own.
LOG 21. -/
def decodeTableWord (nbits w : Nat) : Option Instr :=
  match decode (tableWord nbits w) with
  | .ok i => some i
  | .error _ => none

end Sys2Proof
end

