-- ==== Sys2Proof/Config.lean ====
section
/-!
DEFINITION. The parameters of the block, which are arguments of the model (10_state.md R41), the constants
the spec fixes (00_scope.md R6 to R11), and the free values. The free values are constants with no body:
nothing is known of them, and what is proved holds for all.
-/
namespace Sys2Proof

/-- The parameters of 10_state.md R41. Every meaning that depends on one takes them as an argument. -/
structure Params where
  /-- IBUF_CAP (00_scope.md R6). -/
  ibufCap : Nat
  /-- OBUF_CAP (00_scope.md R6). -/
  obufCap : Nat
  /-- APP_COMMAND_FLAG (00_scope.md R7). -/
  appCommandFlag : Byte
  /-- LOCK_VARIANT, of protocolType, protocolVersion and scene (00_scope.md R8). -/
  lockVariant : Byte → Byte → Byte → Byte
  /-- LEGACY_V2_TYPES: whether protocolType `i + 1` is in it (00_scope.md R9). -/
  legacyV2 : Fin 4 → Bool

/-- The capacities every rule is stated for: `IBUF_CAP >= 256` and `OBUF_CAP >= IBUF_CAP + 16`
(00_scope.md R6; 93_implementation_defined.md). -/
abbrev Params.Admitted (c : Params) : Prop := 256 ≤ c.ibufCap ∧ c.ibufCap + 16 ≤ c.obufCap

/-- The width of a register that counts the bytes of a buffer of `cap` bytes: ILEN with IBUF_CAP, OLEN with
OBUF_CAP. It is 9 bits wherever 0..cap fits them (10_state.md R19), else as many as `cap` needs. LOG 14. -/
def lengthBits (cap : Nat) : Nat := if cap < 512 then 9 else Nat.log2 cap + 1

namespace Config

/-- IBUF_CAP, the capacity of the input buffer (00_scope.md R6). LOG 6. -/
def ibufCap : Nat := 256

/-- OBUF_CAP = IBUF_CAP + 16, the capacity of the output buffer (00_scope.md R6). LOG 6. -/
def obufCap : Nat := 272

/-- APP_COMMAND_FLAG, the encryptFlag that FINIT writes by default (00_scope.md R7). LOG 7. -/
def appCommandFlag : Byte := 0xAA#8

/-- Byte 0 of the frame header (00_scope.md R11). -/
def header0 : Byte := 0x7F#8

/-- Byte 1 of the frame header (00_scope.md R11). -/
def header1 : Byte := 0x5A#8

/-- FREE VALUE. LOCK_VARIANT, an open total function of protocolType, protocolVersion and scene
(00_scope.md R8). LOG 4. -/
opaque lockVariant (pt pv scene : Byte) : Byte

/-- FREE VALUE. Which of the legacy protocolTypes 1 to 4 are "legacy-V2": LEGACY_V2_TYPES is an open
subset of the four (00_scope.md R9); `legacyV2 i` speaks of protocolType `i + 1`. LOG 5. -/
opaque legacyV2 (i : Fin 4) : Bool

/-- FREE VALUE. The draws of SEED_DRAW in the order they are used; draw `n` gives the seed
`seedDraw n + 1`, some value in [1,127] (00_scope.md R10). LOG 3. -/
opaque seedDraw (n : Nat) : Fin 127

/-- The parameters of the block that `exec` and `step` are: the values the spec fixes, and a free value for
each that it leaves open. LOG 4 to 7. -/
def params : Params where
  ibufCap := ibufCap
  obufCap := obufCap
  appCommandFlag := appCommandFlag
  lockVariant := lockVariant
  legacyV2 := legacyV2

end Config

end Sys2Proof
end

