-- ==== Sys2Proof/Machine/State.lean ====
section
/-!
DEFINITION. The state of the block as plain data (10_state.md R19), what stops a step, and the state after
reset (10_state.md R40; 70_reset_and_hazards.md R166).
-/
namespace Sys2Proof.Machine

/-- The contents of a byte buffer: (index, byte) pairs, indices strictly rising, no entry equal to the
byte an unlisted index reads as (Machine/Ops.lean says which; the form is `Memory.wf` there). -/
abbrev Memory := List Host.Cell

/-- FSTATE (10_state.md R26). The value 3 never occurs, so it has no constructor. LOG 15. -/
inductive FrameState where
  | empty
  | parsed
  | shell
deriving DecidableEq, Repr

/-- The frame registers, the envelope (10_state.md R26 to R36; table in R19). -/
structure FrameRegs where
  fstate   : FrameState
  fleg     : Bool
  fhdr     : Byte × Byte
  fpt      : Byte
  fpv      : Byte
  fscene   : Byte
  fgid     : BitVec 16
  foid     : BitVec 16
  fcmd     : Byte
  fcmdv    : Bool
  fef      : Byte
  fplen    : Byte
  fpay     : List Byte
  fcrcrx   : Byte
  fcrccalc : Byte
  fcrcok   : Bool
  flvar    : Byte
  fdone    : Bool
  fplain   : List Byte
deriving DecidableEq, Repr

/-- Every architectural register of 10_state.md R19 and three fields of the model's own: `port`, the host
actions still to come (LOG 1); `reply`, what the last READ gave the host (LOG 13); `draws`, how many draws
of SEED_DRAW have been used (LOG 3). The parameters are no part of it (10_state.md R41); that ILEN and OLEN
are within the capacities is an invariant (10_state.md R39; LOG 14). -/
structure State where
  ibuf   : Memory
  ilen   : Nat
  obuf   : Memory
  olen   : Nat
  key    : Block
  kvalid : Bool
  cfg    : BitVec 8
  status : BitVec 8
  erracc : BitVec 16
  frame  : FrameRegs
  port   : List HostAction
  reply  : Option RegValue
  draws  : Nat
deriving DecidableEq, Repr

/-- Why a step stops. The block itself has no fault: its errors are status codes
(60_exceptions.md R145, R148). -/
inductive Fault where
  /-- Raised by the one operation that writes OBUF, for an output of more than OBUF_CAP bytes: an index
  that 20_memory.md R48 says does not exist. Safe: 20_memory.md R50 says no command does it, and it needs
  a state that breaks the invariants of 10_state.md R39. LOG 11. -/
  | bufferOverrun
deriving DecidableEq, Repr

/-- Why a step is refused. -/
inductive Refusal where
  /-- Raised by `exec` for an instruction with no meaning yet. Safe. No arm does. -/
  | notModelled (mnemonic : String)
  /-- Raised by a LOAD of more than IBUF_CAP bytes: "A LOAD of a longer string is refused: the host has no
  such move" (10_state.md R20; 93_implementation_defined.md). Safe. LOG 12. -/
  | loadTooLong
deriving DecidableEq, Repr

/-- What one command or one host action gives. -/
abbrev Result := Host.Outcome State Fault Refusal

/-- The all-zero 16-byte string. -/
def zeroBlock : Block :=
  let z : Column := ⟨0#8, 0#8, 0#8, 0#8⟩
  ⟨z, z, z, z⟩

/-- The frame registers after reset: EMPTY, and every register 0 or empty (10_state.md R19;
70_reset_and_hazards.md R166). -/
def FrameRegs.reset : FrameRegs where
  fstate := .empty
  fleg := false
  fhdr := (0#8, 0#8)
  fpt := 0#8
  fpv := 0#8
  fscene := 0#8
  fgid := 0#16
  foid := 0#16
  fcmd := 0#8
  fcmdv := false
  fef := 0#8
  fplen := 0#8
  fpay := []
  fcrcrx := 0#8
  fcrccalc := 0#8
  fcrcok := false
  flvar := 0#8
  fdone := false
  fplain := []

/-- The block right after reset: the reset column of 10_state.md R19. Both buffers are all 0x00, which
is no entry in the canonical form. The model's own fields start empty (LOG 1, 3, 13). -/
def State.reset : State where
  ibuf := []
  ilen := 0
  obuf := []
  olen := 0
  key := zeroBlock
  kvalid := false
  cfg := 0x00#8
  status := 0x00#8
  erracc := 0x0000#16
  frame := FrameRegs.reset
  port := []
  reply := none
  draws := 0

end Sys2Proof.Machine
end

