-- ==== Sys2Proof/Machine/Ops.lean ====
section
/-!
DEFINITION. The named operations over the buffers and the registers (00_scope.md R14), ending a command
well or in an error (60_exceptions.md R145 to R148), and what the host's READ gives (10_state.md R19).
-/
namespace Sys2Proof.Machine

/-! ## Byte buffers (20_memory.md R48) -/

/-- What an index with no entry reads as: the reset contents, 0x00 (10_state.md R19). -/
def unlistedByte : Byte := 0x00#8

/-- The canonical form: indices strictly rising, and no entry equal to `unlistedByte`. -/
abbrev Memory.wf (m : Memory) : Prop :=
  (m.map Prod.fst).Pairwise (· < ·) ∧ ∀ c ∈ m, c.2 ≠ unlistedByte

/-- Every listed index lies in the address space 0..cap-1 (20_memory.md R48). -/
abbrev Memory.within (cap : Nat) (m : Memory) : Prop := ∀ c ∈ m, c.1 < cap

/-- One byte of a buffer. -/
def Memory.read (m : Memory) (a : Nat) : Byte :=
  match m with
  | [] => unlistedByte
  | (i, b) :: rest => if i = a then b else Memory.read rest a

/-- An entry put in its place in a buffer that has none at its index. -/
def Memory.insert (m : Memory) (a : Nat) (v : Byte) : Memory :=
  match m with
  | [] => [(a, v)]
  | (i, b) :: rest => if i < a then (i, b) :: Memory.insert rest a v else (a, v) :: (i, b) :: rest

/-- The buffer with one byte replaced, again in canonical form. -/
def Memory.write (m : Memory) (a : Nat) (v : Byte) : Memory :=
  let others := m.filter fun c => c.1 ≠ a
  if v = unlistedByte then others else Memory.insert others a v

/-- The buffer with the byte string `s` stored from index `a` on, byte by byte (20_memory.md R55). -/
def Memory.store (m : Memory) (a : Nat) (s : List Byte) : Memory :=
  match s with
  | [] => m
  | b :: rest => Memory.store (m.write a b) (a + 1) rest

/-- `buffer[a .. a+n)` (00_scope.md R13, R14). -/
def Memory.slice (m : Memory) (a n : Nat) : List Byte :=
  (List.range n).map fun i => m.read (a + i)

/-- IBUF[0..len) and ILEN written together (10_state.md R20; 20_memory.md R56). The bytes at `len` and
above keep their values (44_control.md R142; for LOAD, LOG 10). `none`: the string does not fit. -/
def setInput (c : Params) (bytes : List Byte) (s : State) : Option State :=
  if bytes.length ≤ c.ibufCap then
    some { s with ibuf := s.ibuf.store 0 bytes, ilen := bytes.length }
  else none

/-- `MemWrite(OBUF, bytes)`: OBUF[0..len) and OLEN; bytes at `len` and above keep their values
(00_scope.md R14; 10_state.md R21). `none`: the string is longer than OBUF_CAP, which 20_memory.md R50
says no command's output is. -/
def setOutput (c : Params) (bytes : List Byte) (s : State) : Option State :=
  if bytes.length ≤ c.obufCap then
    some { s with obuf := s.obuf.store 0 bytes, olen := bytes.length }
  else none

/-! ## Ending a command -/

/-- The error codes that are not OK (60_exceptions.md R146). -/
inductive ErrorCode where
  | frameTooShort
  | invalidLength
  | crcMismatch
  | invalidKey
  | decryption
  | commandNotReady
  | missingAesKey
  | illegalCommand
deriving DecidableEq, Repr

/-- The number of an error code (60_exceptions.md R146). -/
def ErrorCode.number : ErrorCode → Nat
  | .frameTooShort => 1
  | .invalidLength => 2
  | .crcMismatch => 3
  | .invalidKey => 4
  | .decryption => 5
  | .commandNotReady => 6
  | .missingAesKey => 7
  | .illegalCommand => 8

/-- The STATUS value of an error code. -/
def ErrorCode.status (c : ErrorCode) : BitVec 8 := BitVec.ofNat 8 c.number

/-- The ERRACC bit of an error code, `1 << code` (60_exceptions.md R148; 10_state.md R25). -/
def ErrorCode.bit (c : ErrorCode) : BitVec 16 := 1#16 <<< c.number

/-- OK, STATUS code 0 (60_exceptions.md R146). -/
def statusOk : BitVec 8 := 0x00#8

/-- `finish()`: the command ends with STATUS <- OK (00_scope.md R14). -/
def finish (s : State) : State := { s with status := statusOk }

/-- `raise Error(code)`, the one operation by which a command ends in an error, applied to the state
before the command: STATUS <- code, ERRACC <- ERRACC | (1 << code), and nothing else
(60_exceptions.md R148). There is no handler to go to and no return (60_exceptions.md R159). -/
def raise (c : ErrorCode) (s : State) : State :=
  { s with status := c.status, erracc := s.erracc ||| c.bit }

/-- A command that ends with `raise`. It goes on: the block never stops because of an error
(60_exceptions.md R145). -/
def fails (c : ErrorCode) (s : State) : Result := .next (raise c s)

/-- A command whose last action is `MemWrite(OBUF, bytes)` and then `finish()` (20_memory.md R50). -/
def finishWith (c : Params) (bytes : List Byte) (s : State) : Result :=
  match setOutput c bytes s with
  | some t => .next (finish t)
  | none => .fault .bufferOverrun

/-! ## The seed draw (00_scope.md R10) -/

/-- The seed of a draw: draw `d` is the value `d + 1` in [1,127] (00_scope.md R10). -/
def seedOf (draw : Fin 127) : Byte := BitVec.ofNat 8 (draw.val + 1)

/-- The draw that the next use of SEED_DRAW gets: a free value. LOG 3. -/
def nextDraw (s : State) : Fin 127 := Config.seedDraw s.draws

/-- One use of SEED_DRAW is spent (20_memory.md R57). -/
def consumeDraw (s : State) : State := { s with draws := s.draws + 1 }

/-! ## The frame registers (10_state.md R26 to R36) -/

/-- A failed FPARSE drops the frame: FSTATE <- EMPTY, every other frame register keeps its value
(43_frame.md R126). -/
def dropFrame (s : State) : State := { s with frame := { s.frame with fstate := .empty } }

/-- FCMD <- cmd, FCMDV <- 1 (43_frame.md R132). -/
def setCommandType (cmd : Byte) (s : State) : State :=
  { s with frame := { s.frame with fcmd := cmd, fcmdv := true } }

/-- FEF <- ef (43_frame.md R133). -/
def setEncryptFlag (ef : Byte) (s : State) : State :=
  { s with frame := { s.frame with fef := ef } }

/-- FPLAIN <- p, FDONE <- 1 (43_frame.md R128). -/
def cachePlain (p : List Byte) (s : State) : State :=
  { s with frame := { s.frame with fplain := p, fdone := true } }

/-- All frame registers written at once (43_frame.md R124, R130). -/
def setFrame (f : FrameRegs) (s : State) : State := { s with frame := f }

/-! ## Key and configuration -/

/-- KEY and KVALID written together (42_aes.md R115, R116). -/
def setKey (k : Block) (valid : Bool) (s : State) : State := { s with key := k, kvalid := valid }

/-- CFG <- image (44_control.md R143). -/
def setConfig (image : Byte) (s : State) : State := { s with cfg := image }

/-! ## Byte strings and blocks (20_memory.md R53; 42_aes.md R105) -/

/-- The four bytes of a column, row 0 first. -/
def Column.toBytes (c : Column) : List Byte := [c.r0, c.r1, c.r2, c.r3]

/-- The 16 bytes of a block in string order: byte `i` is row `i mod 4` of column `i div 4`. -/
def Block.toBytes (b : Block) : List Byte :=
  Column.toBytes b.c0 ++ Column.toBytes b.c1 ++ Column.toBytes b.c2 ++ Column.toBytes b.c3

/-- The column at bytes `i .. i+3` of a string. -/
def Column.ofBytes (bs : List Byte) (i : Nat) : Column :=
  ⟨bs.getD i 0#8, bs.getD (i + 1) 0#8, bs.getD (i + 2) 0#8, bs.getD (i + 3) 0#8⟩

/-- The block of a 16-byte string; it is used on 16-byte strings only. -/
def Block.ofBytes (bs : List Byte) : Block :=
  ⟨Column.ofBytes bs 0, Column.ofBytes bs 4, Column.ofBytes bs 8, Column.ofBytes bs 12⟩

/-! ## Read-only tables (10_state.md R37; 20_memory.md R51) -/

/-- One entry of a 256-byte ROM written as the spec prints it, 16 rows of 16: row `0xR0`, column `+C`
holds entry `0xRC` (40_crc8.md R87; 42_aes.md R103, R104). -/
def romByte (rows : List (List Nat)) (x : Byte) : Byte :=
  BitVec.ofNat 8 ((rows.getD (x.toNat / 16) []).getD (x.toNat % 16) 0)

/-! ## READ (70_reset_and_hazards.md R178) -/

/-- The code of FSTATE (10_state.md R26). -/
def FrameState.code : FrameState → Nat
  | .empty => 0
  | .parsed => 1
  | .shell => 2

/-- The value of a register as the host reads it, with the width of 10_state.md R19. LOG 13. -/
def readReg (c : Params) (r : RegName) (s : State) : RegValue :=
  match r with
  | .ibuf => .bytes (s.ibuf.slice 0 c.ibufCap)
  | .ilen => .bits (lengthBits c.ibufCap) s.ilen
  | .obuf => .bytes (s.obuf.slice 0 c.obufCap)
  | .olen => .bits (lengthBits c.obufCap) s.olen
  | .key => .bytes (Block.toBytes s.key)
  | .kvalid => .bits 1 s.kvalid.toNat
  | .cfg => .bits 8 s.cfg.toNat
  | .status => .bits 8 s.status.toNat
  | .erracc => .bits 16 s.erracc.toNat
  | .fstate => .bits 2 (FrameState.code s.frame.fstate)
  | .fleg => .bits 1 s.frame.fleg.toNat
  | .fhdr => .bytes [s.frame.fhdr.1, s.frame.fhdr.2]
  | .fpt => .bits 8 s.frame.fpt.toNat
  | .fpv => .bits 8 s.frame.fpv.toNat
  | .fscene => .bits 8 s.frame.fscene.toNat
  | .fgid => .bits 16 s.frame.fgid.toNat
  | .foid => .bits 16 s.frame.foid.toNat
  | .fcmd => .bits 8 s.frame.fcmd.toNat
  | .fcmdv => .bits 1 s.frame.fcmdv.toNat
  | .fef => .bits 8 s.frame.fef.toNat
  | .fplen => .bits 8 s.frame.fplen.toNat
  | .fpay => .bytes s.frame.fpay
  | .fcrcrx => .bits 8 s.frame.fcrcrx.toNat
  | .fcrccalc => .bits 8 s.frame.fcrccalc.toNat
  | .fcrcok => .bits 1 s.frame.fcrcok.toNat
  | .flvar => .bits 8 s.frame.flvar.toNat
  | .fdone => .bits 1 s.frame.fdone.toNat
  | .fplain => .bytes s.frame.fplain

end Sys2Proof.Machine
end

