-- ==== Sys2Proof/Machine/Operands.lean ====
section
/-!
DEFINITION. The operands of a command besides its immediate (30_encoding.md R63): the current input, the
current output, and the integers assembled from single bytes (20_memory.md R52, R55).
-/
namespace Sys2Proof.Machine

/-- `in()`, the current input IBUF[0..ILEN) (00_scope.md R14; 10_state.md R20). -/
def input (s : State) : List Byte := s.ibuf.slice 0 s.ilen

/-- `MemRead(IBUF, a, n)`, used only when `a + n <= ILEN` (00_scope.md R14). -/
def inputSlice (s : State) (a n : Nat) : List Byte := s.ibuf.slice a n

/-- The current output OBUF[0..OLEN) (10_state.md R21). -/
def output (s : State) : List Byte := s.obuf.slice 0 s.olen

/-- Byte `i` of a byte string (00_scope.md R13); every use is at an index below the length. -/
def byteAt (f : List Byte) (i : Nat) : Byte := f.getD i 0#8

/-- `f[i..j)` (00_scope.md R13). -/
def byteRange (f : List Byte) (i j : Nat) : List Byte := (f.drop i).take (j - i)

/-- `be16(hi, lo) = hi * 256 + lo` (00_scope.md R12; 20_memory.md R52). -/
def be16 (hi lo : Byte) : BitVec 16 := hi ++ lo

/-- `v[15:8]` of a 16-bit register (00_scope.md R12). -/
def hiByte (v : BitVec 16) : Byte := v.extractLsb' 8 8

/-- `v[7:0]` of a 16-bit register (00_scope.md R12). -/
def loByte (v : BitVec 16) : Byte := v.extractLsb' 0 8

/-- `sext_8(v)`: a byte read as a two's-complement value -128..127 (00_scope.md R12). -/
def sext8 (v : Byte) : Int := v.toInt

end Sys2Proof.Machine
end

