-- ==== Sys2Proof/Machine/AesCipher.lean ====
section
/-!
DEFINITION. The AES-128 block cipher, PKCS#7 padding and CBC with IV = key (42_aes.md sections 1 and 2). The
algorithm is general knowledge in the spec (93_implementation_defined.md Part 2). LOG 8.
-/
namespace Sys2Proof.Machine

/-! ## Field arithmetic (42_aes.md R102) -/

/-- `xtime(a)`: times x in GF(2^8) with polynomial 0x11B (42_aes.md R102). -/
def xtime (a : Byte) : Byte := if a.getLsbD 7 then (a <<< 1) ^^^ 0x1B#8 else a <<< 1

/-- `gmul(a, b)` from bit `i` of `b` on, with `n` bits to go, `a` already multiplied by x^i. -/
def gmulFrom (a b : Byte) (i n : Nat) : Byte :=
  match n with
  | 0 => 0#8
  | n + 1 => (if b.getLsbD i then a else 0#8) ^^^ gmulFrom (xtime a) b (i + 1) n

/-- `gmul(a, b)`, the product in GF(2^8) (42_aes.md R102). -/
def gmul (a b : Byte) : Byte := gmulFrom a b 0 8

/-! ## Tables -/

/-- SBOX (42_aes.md R103), rows 0x00 to 0x70. -/
def sboxRowsLow : List (List Nat) :=
  [[0x63, 0x7C, 0x77, 0x7B, 0xF2, 0x6B, 0x6F, 0xC5, 0x30, 0x01, 0x67, 0x2B, 0xFE, 0xD7, 0xAB, 0x76],
   [0xCA, 0x82, 0xC9, 0x7D, 0xFA, 0x59, 0x47, 0xF0, 0xAD, 0xD4, 0xA2, 0xAF, 0x9C, 0xA4, 0x72, 0xC0],
   [0xB7, 0xFD, 0x93, 0x26, 0x36, 0x3F, 0xF7, 0xCC, 0x34, 0xA5, 0xE5, 0xF1, 0x71, 0xD8, 0x31, 0x15],
   [0x04, 0xC7, 0x23, 0xC3, 0x18, 0x96, 0x05, 0x9A, 0x07, 0x12, 0x80, 0xE2, 0xEB, 0x27, 0xB2, 0x75],
   [0x09, 0x83, 0x2C, 0x1A, 0x1B, 0x6E, 0x5A, 0xA0, 0x52, 0x3B, 0xD6, 0xB3, 0x29, 0xE3, 0x2F, 0x84],
   [0x53, 0xD1, 0x00, 0xED, 0x20, 0xFC, 0xB1, 0x5B, 0x6A, 0xCB, 0xBE, 0x39, 0x4A, 0x4C, 0x58, 0xCF],
   [0xD0, 0xEF, 0xAA, 0xFB, 0x43, 0x4D, 0x33, 0x85, 0x45, 0xF9, 0x02, 0x7F, 0x50, 0x3C, 0x9F, 0xA8],
   [0x51, 0xA3, 0x40, 0x8F, 0x92, 0x9D, 0x38, 0xF5, 0xBC, 0xB6, 0xDA, 0x21, 0x10, 0xFF, 0xF3, 0xD2]]

/-- SBOX (42_aes.md R103), rows 0x80 to 0xF0. -/
def sboxRowsHigh : List (List Nat) :=
  [[0xCD, 0x0C, 0x13, 0xEC, 0x5F, 0x97, 0x44, 0x17, 0xC4, 0xA7, 0x7E, 0x3D, 0x64, 0x5D, 0x19, 0x73],
   [0x60, 0x81, 0x4F, 0xDC, 0x22, 0x2A, 0x90, 0x88, 0x46, 0xEE, 0xB8, 0x14, 0xDE, 0x5E, 0x0B, 0xDB],
   [0xE0, 0x32, 0x3A, 0x0A, 0x49, 0x06, 0x24, 0x5C, 0xC2, 0xD3, 0xAC, 0x62, 0x91, 0x95, 0xE4, 0x79],
   [0xE7, 0xC8, 0x37, 0x6D, 0x8D, 0xD5, 0x4E, 0xA9, 0x6C, 0x56, 0xF4, 0xEA, 0x65, 0x7A, 0xAE, 0x08],
   [0xBA, 0x78, 0x25, 0x2E, 0x1C, 0xA6, 0xB4, 0xC6, 0xE8, 0xDD, 0x74, 0x1F, 0x4B, 0xBD, 0x8B, 0x8A],
   [0x70, 0x3E, 0xB5, 0x66, 0x48, 0x03, 0xF6, 0x0E, 0x61, 0x35, 0x57, 0xB9, 0x86, 0xC1, 0x1D, 0x9E],
   [0xE1, 0xF8, 0x98, 0x11, 0x69, 0xD9, 0x8E, 0x94, 0x9B, 0x1E, 0x87, 0xE9, 0xCE, 0x55, 0x28, 0xDF],
   [0x8C, 0xA1, 0x89, 0x0D, 0xBF, 0xE6, 0x42, 0x68, 0x41, 0x99, 0x2D, 0x0F, 0xB0, 0x54, 0xBB, 0x16]]

/-- `SBOX[x]` (42_aes.md R103). -/
def sbox (x : Byte) : Byte := romByte (sboxRowsLow ++ sboxRowsHigh) x

/-- INV_SBOX (42_aes.md R104), rows 0x00 to 0x70. -/
def invSboxRowsLow : List (List Nat) :=
  [[0x52, 0x09, 0x6A, 0xD5, 0x30, 0x36, 0xA5, 0x38, 0xBF, 0x40, 0xA3, 0x9E, 0x81, 0xF3, 0xD7, 0xFB],
   [0x7C, 0xE3, 0x39, 0x82, 0x9B, 0x2F, 0xFF, 0x87, 0x34, 0x8E, 0x43, 0x44, 0xC4, 0xDE, 0xE9, 0xCB],
   [0x54, 0x7B, 0x94, 0x32, 0xA6, 0xC2, 0x23, 0x3D, 0xEE, 0x4C, 0x95, 0x0B, 0x42, 0xFA, 0xC3, 0x4E],
   [0x08, 0x2E, 0xA1, 0x66, 0x28, 0xD9, 0x24, 0xB2, 0x76, 0x5B, 0xA2, 0x49, 0x6D, 0x8B, 0xD1, 0x25],
   [0x72, 0xF8, 0xF6, 0x64, 0x86, 0x68, 0x98, 0x16, 0xD4, 0xA4, 0x5C, 0xCC, 0x5D, 0x65, 0xB6, 0x92],
   [0x6C, 0x70, 0x48, 0x50, 0xFD, 0xED, 0xB9, 0xDA, 0x5E, 0x15, 0x46, 0x57, 0xA7, 0x8D, 0x9D, 0x84],
   [0x90, 0xD8, 0xAB, 0x00, 0x8C, 0xBC, 0xD3, 0x0A, 0xF7, 0xE4, 0x58, 0x05, 0xB8, 0xB3, 0x45, 0x06],
   [0xD0, 0x2C, 0x1E, 0x8F, 0xCA, 0x3F, 0x0F, 0x02, 0xC1, 0xAF, 0xBD, 0x03, 0x01, 0x13, 0x8A, 0x6B]]

/-- INV_SBOX (42_aes.md R104), rows 0x80 to 0xF0. -/
def invSboxRowsHigh : List (List Nat) :=
  [[0x3A, 0x91, 0x11, 0x41, 0x4F, 0x67, 0xDC, 0xEA, 0x97, 0xF2, 0xCF, 0xCE, 0xF0, 0xB4, 0xE6, 0x73],
   [0x96, 0xAC, 0x74, 0x22, 0xE7, 0xAD, 0x35, 0x85, 0xE2, 0xF9, 0x37, 0xE8, 0x1C, 0x75, 0xDF, 0x6E],
   [0x47, 0xF1, 0x1A, 0x71, 0x1D, 0x29, 0xC5, 0x89, 0x6F, 0xB7, 0x62, 0x0E, 0xAA, 0x18, 0xBE, 0x1B],
   [0xFC, 0x56, 0x3E, 0x4B, 0xC6, 0xD2, 0x79, 0x20, 0x9A, 0xDB, 0xC0, 0xFE, 0x78, 0xCD, 0x5A, 0xF4],
   [0x1F, 0xDD, 0xA8, 0x33, 0x88, 0x07, 0xC7, 0x31, 0xB1, 0x12, 0x10, 0x59, 0x27, 0x80, 0xEC, 0x5F],
   [0x60, 0x51, 0x7F, 0xA9, 0x19, 0xB5, 0x4A, 0x0D, 0x2D, 0xE5, 0x7A, 0x9F, 0x93, 0xC9, 0x9C, 0xEF],
   [0xA0, 0xE0, 0x3B, 0x4D, 0xAE, 0x2A, 0xF5, 0xB0, 0xC8, 0xEB, 0xBB, 0x3C, 0x83, 0x53, 0x99, 0x61],
   [0x17, 0x2B, 0x04, 0x7E, 0xBA, 0x77, 0xD6, 0x26, 0xE1, 0x69, 0x14, 0x63, 0x55, 0x21, 0x0C, 0x7D]]

/-- `INV_SBOX[x]` (42_aes.md R104). -/
def invSbox (x : Byte) : Byte := romByte (invSboxRowsLow ++ invSboxRowsHigh) x

/-- RCON (42_aes.md R108). -/
def rcon : List Byte :=
  [0x01#8, 0x02#8, 0x04#8, 0x08#8, 0x10#8, 0x20#8, 0x40#8, 0x80#8, 0x1B#8, 0x36#8]

/-! ## The state, `st[r][c]` (42_aes.md R105) -/

/-- Row `r` of a column. -/
def Column.row (col : Column) (r : Fin 4) : Byte :=
  match r with
  | 0 => col.r0
  | 1 => col.r1
  | 2 => col.r2
  | 3 => col.r3

/-- Column `c` of a block. -/
def Block.column (st : Block) (c : Fin 4) : Column :=
  match c with
  | 0 => st.c0
  | 1 => st.c1
  | 2 => st.c2
  | 3 => st.c3

/-- `st[r][c]`. -/
def Block.at (st : Block) (r c : Fin 4) : Byte := Column.row (Block.column st c) r

/-- The state whose entry at row `r`, column `c` is `f r c`. -/
def Block.ofEntries (f : Fin 4 → Fin 4 → Byte) : Block :=
  let col (c : Fin 4) : Column := ⟨f 0 c, f 1 c, f 2 c, f 3 c⟩
  ⟨col 0, col 1, col 2, col 3⟩

/-- Every column through `g`. -/
def Block.mapColumns (g : Column → Column) (st : Block) : Block :=
  ⟨g st.c0, g st.c1, g st.c2, g st.c3⟩

/-- Every byte of a column through `g`. -/
def Column.map (g : Byte → Byte) (col : Column) : Column := ⟨g col.r0, g col.r1, g col.r2, g col.r3⟩

/-- Bytewise XOR of two four-byte words. -/
def Column.xor (a b : Column) : Column :=
  ⟨a.r0 ^^^ b.r0, a.r1 ^^^ b.r1, a.r2 ^^^ b.r2, a.r3 ^^^ b.r3⟩

/-- Bytewise XOR of two 16-byte strings. -/
def Block.xor (a b : Block) : Block :=
  ⟨Column.xor a.c0 b.c0, Column.xor a.c1 b.c1, Column.xor a.c2 b.c2, Column.xor a.c3 b.c3⟩

/-! ## Round transformations (42_aes.md R106, R107) -/

/-- SubBytes: `st[r][c] <- SBOX[st[r][c]]` (42_aes.md R106). -/
def subBytes (st : Block) : Block := Block.mapColumns (Column.map sbox) st

/-- ShiftRows: `st'[r][c] = st[r][(c + r) mod 4]` (42_aes.md R106). -/
def shiftRows (st : Block) : Block := Block.ofEntries fun r c => Block.at st r (c + r)

/-- MixColumns on one column (42_aes.md R106). -/
def mixColumn (a : Column) : Column :=
  ⟨gmul 2#8 a.r0 ^^^ gmul 3#8 a.r1 ^^^ a.r2 ^^^ a.r3,
   a.r0 ^^^ gmul 2#8 a.r1 ^^^ gmul 3#8 a.r2 ^^^ a.r3,
   a.r0 ^^^ a.r1 ^^^ gmul 2#8 a.r2 ^^^ gmul 3#8 a.r3,
   gmul 3#8 a.r0 ^^^ a.r1 ^^^ a.r2 ^^^ gmul 2#8 a.r3⟩

/-- MixColumns (42_aes.md R106). -/
def mixColumns (st : Block) : Block := Block.mapColumns mixColumn st

/-- AddRoundKey: bytewise XOR with a round key (42_aes.md R106). -/
def addRoundKey (st rk : Block) : Block := Block.xor st rk

/-- InvSubBytes (42_aes.md R107). -/
def invSubBytes (st : Block) : Block := Block.mapColumns (Column.map invSbox) st

/-- InvShiftRows: `st'[r][c] = st[r][(c - r) mod 4]` (42_aes.md R107). -/
def invShiftRows (st : Block) : Block := Block.ofEntries fun r c => Block.at st r (c - r)

/-- InvMixColumns on one column (42_aes.md R107). -/
def invMixColumn (a : Column) : Column :=
  ⟨gmul 14#8 a.r0 ^^^ gmul 11#8 a.r1 ^^^ gmul 13#8 a.r2 ^^^ gmul 9#8 a.r3,
   gmul 9#8 a.r0 ^^^ gmul 14#8 a.r1 ^^^ gmul 11#8 a.r2 ^^^ gmul 13#8 a.r3,
   gmul 13#8 a.r0 ^^^ gmul 9#8 a.r1 ^^^ gmul 14#8 a.r2 ^^^ gmul 11#8 a.r3,
   gmul 11#8 a.r0 ^^^ gmul 13#8 a.r1 ^^^ gmul 9#8 a.r2 ^^^ gmul 14#8 a.r3⟩

/-- InvMixColumns (42_aes.md R107). -/
def invMixColumns (st : Block) : Block := Block.mapColumns invMixColumn st

/-! ## Key expansion (42_aes.md R108) -/

/-- RotWord then SubWord then the round constant on byte 0, for a word at an index that is a multiple
of 4 (42_aes.md R108). -/
def keyWordCore (t : Column) (rc : Byte) : Column :=
  ⟨sbox t.r1 ^^^ rc, sbox t.r2, sbox t.r3, sbox t.r0⟩

/-- The four words `w[4j+4 .. 4j+7]` of the next round key from the four of round key `j`: the loop body
of 42_aes.md R108 for `i = 4j+4 .. 4j+7`, `w[i] <- w[i-4] ^ t`. -/
def nextRoundKey (rk : Block) (rc : Byte) : Block :=
  let w0 := Column.xor rk.c0 (keyWordCore rk.c3 rc)
  let w1 := Column.xor rk.c1 w0
  let w2 := Column.xor rk.c2 w1
  let w3 := Column.xor rk.c3 w2
  ⟨w0, w1, w2, w3⟩

/-- The round key `rk[j]`, for j = 0..10 (42_aes.md R108). -/
def roundKey (k : Block) (j : Nat) : Block :=
  match j with
  | 0 => k
  | j + 1 => nextRoundKey (roundKey k j) (rcon.getD j 0#8)

/-! ## One block (42_aes.md R109, R110) -/

/-- `aes_enc(b, k)` (42_aes.md R109). -/
def aesEnc (b k : Block) : Block :=
  let st := addRoundKey b (roundKey k 0)
  let st := (List.range' 1 9).foldl
    (fun st j => addRoundKey (mixColumns (shiftRows (subBytes st))) (roundKey k j)) st
  addRoundKey (shiftRows (subBytes st)) (roundKey k 10)

/-- `aes_dec(b, k)` (42_aes.md R110). -/
def aesDec (b k : Block) : Block :=
  let st := addRoundKey b (roundKey k 10)
  let st := (List.range' 1 9).reverse.foldl
    (fun st j => invMixColumns (addRoundKey (invSubBytes (invShiftRows st)) (roundKey k j))) st
  addRoundKey (invSubBytes (invShiftRows st)) (roundKey k 0)

/-! ## Padding (42_aes.md R111, R112) -/

/-- `pad(p)`: q copies of q, `q = 16 - (len(p) mod 16)` (42_aes.md R111). -/
def pad (p : List Byte) : List Byte :=
  let q := 16 - p.length % 16
  p ++ List.replicate q (BitVec.ofNat 8 q)

/-- `unpad(d)`: every one of the last q bytes is checked; `none` is a failure (42_aes.md R112). -/
def unpad (d : List Byte) : Option (List Byte) :=
  let last := d.getD (d.length - 1) 0#8
  let q := last.toNat
  if q = 0 ∨ q > 16 then none
  else if d.drop (d.length - q) ≠ List.replicate q last then none
  else some (d.take (d.length - q))

/-! ## CBC with IV = key (42_aes.md R113, R114)

The IV is the key itself: a known weakness of the protocol that the source requires to be kept exactly and
never "fixed" silently (42_aes.md R120). -/

/-- The first `n` 16-byte blocks of a byte string, in order. -/
def blocksOf (n : Nat) (bs : List Byte) : List Block :=
  match n with
  | 0 => []
  | n + 1 => Block.ofBytes (bs.take 16) :: blocksOf n (bs.drop 16)

/-- The chaining loop of `cbc_enc`: `prev <- aes_enc(m_j ^ prev, k)` (42_aes.md R113). -/
def cbcEncBlocks (k prev : Block) (ms : List Block) : List Byte :=
  match ms with
  | [] => []
  | m :: rest =>
    let c := aesEnc (Block.xor m prev) k
    Block.toBytes c ++ cbcEncBlocks k c rest

/-- `cbc_enc(p, k)`, the IV being `k` (42_aes.md R113). -/
def cbcEnc (p : List Byte) (k : Block) : List Byte :=
  let m := pad p
  cbcEncBlocks k k (blocksOf (m.length / 16) m)

/-- The chaining loop of `cbc_dec`: `aes_dec(c_j, k) ^ prev` (42_aes.md R114). -/
def cbcDecBlocks (k prev : Block) (cs : List Block) : List Byte :=
  match cs with
  | [] => []
  | c :: rest => Block.toBytes (Block.xor (aesDec c k) prev) ++ cbcDecBlocks k c rest

/-- `cbc_dec(c, k)`, the IV being `k`; `none` is a failure, which the commands report as DECRYPTION
(42_aes.md R114). -/
def cbcDec (c : List Byte) (k : Block) : Option (List Byte) :=
  if c.length = 0 ∨ c.length % 16 ≠ 0 then none
  else unpad (cbcDecBlocks k k (blocksOf (c.length / 16) c))

end Sys2Proof.Machine
end

