-- ==== Sys2Proof/Machine/Aes.lean ====
section
/-!
DEFINITION. The four commands of the AES-128-CBC engine (42_aes.md section 3).
-/
namespace Sys2Proof.Machine

/-- KLOAD: KEY <- the 16 input bytes, KVALID <- 1; INVALID_KEY for any other length. The FDATA cache
stays (42_aes.md R115). -/
def execKload (s : State) : Result :=
  if s.ilen ≠ 16 then fails .invalidKey s
  else .next (finish (setKey (Block.ofBytes (inputSlice s 0 16)) true s))

/-- KCLR: KEY <- 0, KVALID <- 0 (42_aes.md R116). -/
def execKclr (s : State) : Result :=
  .next (finish (setKey (Block.ofBytes (List.replicate 16 0x00#8)) false s))

/-- AESENC with the parameters given: AES-128-CBC encrypt the input, IV = KEY; INVALID_KEY when no key is
loaded (42_aes.md R117, R120). -/
def aesencWith (c : Params) (s : State) : Result :=
  if s.kvalid = false then fails .invalidKey s
  else finishWith c (cbcEnc (input s) s.key) s

/-- AESENC (42_aes.md R117). -/
def execAesenc (s : State) : Result := aesencWith Config.params s

/-- AESDEC with the parameters given: AES-128-CBC decrypt the input, IV = KEY; INVALID_KEY when no key is
loaded, then DECRYPTION (42_aes.md R118, R120). -/
def aesdecWith (c : Params) (s : State) : Result :=
  if s.kvalid = false then fails .invalidKey s
  else
    match cbcDec (input s) s.key with
    | none => fails .decryption s
    | some d => finishWith c d s

/-- AESDEC (42_aes.md R118). -/
def execAesdec (s : State) : Result := aesdecWith Config.params s

end Sys2Proof.Machine
end

