-- ==== Sys2Proof/Machine/Flags.lean ====
section
/-!
DEFINITION. The status bits and how each is computed (10_state.md R38). The block has no arithmetic
condition codes; KVALID, FCMDV and FDONE are set and cleared by the operations of Ops.lean.
-/
namespace Sys2Proof.Machine

/-- `is_modern(pt) = (pt >= 5) or (pt = 0)`, pt unsigned (43_frame.md R123). -/
def isModern (pt : Byte) : Bool := 5 ≤ pt.toNat || pt.toNat == 0

/-- `is_legacy(pt) = (1 <= pt <= 4)`, the value of FLEG (43_frame.md R123; 10_state.md R27). -/
def isLegacy (pt : Byte) : Bool := 1 ≤ pt.toNat && pt.toNat ≤ 4

/-- Whether FINIT draws the encryptFlag: the protocolType is legacy and in LEGACY_V2_TYPES
(43_frame.md R131; 00_scope.md R9). LOG 5. -/
def drawsEncryptFlag (c : Params) (pt : Byte) : Bool :=
  match pt.toNat with
  | 1 => c.legacyV2 0
  | 2 => c.legacyV2 1
  | 3 => c.legacyV2 2
  | 4 => c.legacyV2 3
  | _ => false

/-- CFG bit 0, CRC_IGNORE (10_state.md R23). -/
def crcIgnore (cfg : BitVec 8) : Bool := cfg.getLsbD 0

/-- CFG bits 7:1, reserved (10_state.md R23). -/
def cfgReserved (image : Byte) : BitVec 7 := image.extractLsb' 1 7

/-- `crc_ok()`, the effective CRC status, read at the moment FDATA runs (43_frame.md R127). -/
def crcOk (s : State) : Bool := crcIgnore s.cfg || s.frame.fcrcok

end Sys2Proof.Machine
end

