-- ==== Sys2Proof/Machine/Control.lean ====
section
/-!
DEFINITION. The three control commands (44_control.md). No other command reads a register into OBUF or
writes STATUS, ERRACC or a table (44_control.md R144).
-/
namespace Sys2Proof.Machine

/-- NOP: STATUS <- OK and nothing else; ERRACC stays (44_control.md R141). -/
def execNop (s : State) : Result := .next (finish s)

/-- MOVOI with the parameters given: the current output becomes the input; INVALID_LENGTH when it does not
fit, that is when OLEN > IBUF_CAP (44_control.md R142). -/
def movoiWith (c : Params) (s : State) : Result :=
  match setInput c (output s) s with
  | none => fails .invalidLength s
  | some t => .next (finish t)

/-- MOVOI (44_control.md R142). -/
def execMovoi (s : State) : Result := movoiWith Config.params s

/-- CFGW: CFG <- imm; ILLEGAL_COMMAND when a reserved bit is set (44_control.md R143; 10_state.md R23). -/
def execCfgw (imm : Byte) (s : State) : Result :=
  if cfgReserved imm ≠ 0#7 then fails .illegalCommand s
  else .next (finish (setConfig imm s))

end Sys2Proof.Machine
end

