-- ==== Sys2Proof/Machine/Legacy.lean ====
section
/-!
DEFINITION. The legacy XOR stream cipher and its four commands (41_legacy_cipher.md). The cipher keeps no
state and touches neither KEY, CFG nor the frame registers (41_legacy_cipher.md R100).
-/
namespace Sys2Proof.Machine

/-- crcSeed, the raw CRC8 table entry at index `len(p) & 0xFF` (41_legacy_cipher.md R94). -/
def crcSeed (p : List Byte) : Byte := crc8Table (BitVec.ofNat 8 p.length)

/-- `legacy_xor(p, k)`: every byte XORed with the key byte and with crcSeed (41_legacy_cipher.md R94). -/
def legacyXor (p : List Byte) (k : Byte) : List Byte := p.map fun b => k ^^^ b ^^^ crcSeed p

/-- LENC with the parameters given: legacy encode with the given key, no seed appended
(41_legacy_cipher.md R95). -/
def lencWith (c : Params) (imm : Byte) (s : State) : Result := finishWith c (legacyXor (input s) imm) s

/-- LENC (41_legacy_cipher.md R95). -/
def execLenc (imm : Byte) (s : State) : Result := lencWith Config.params imm s

/-- LENCR with the seed the draw returned: encode, then append the seed, itself not encoded
(41_legacy_cipher.md R96; 30_encoding.md R73). -/
def encodeAppendingSeed (c : Params) (seed : Byte) (s : State) : Result :=
  finishWith c (legacyXor (input s) seed ++ [seed]) s

/-- LENCR with the parameters and the draw given: legacy encode with a drawn seed in [1,127], appended; the
draw is spent (41_legacy_cipher.md R96; 20_memory.md R57). -/
def lencrWith (c : Params) (draw : Fin 127) (s : State) : Result :=
  encodeAppendingSeed c (seedOf draw) (consumeDraw s)

/-- LENCR (41_legacy_cipher.md R96). LOG 3. -/
def execLencr (s : State) : Result := lencrWith Config.params (nextDraw s) s

/-- LDEC with the parameters given: legacy decode with the given key (41_legacy_cipher.md R97). -/
def ldecWith (c : Params) (imm : Byte) (s : State) : Result := finishWith c (legacyXor (input s) imm) s

/-- LDEC (41_legacy_cipher.md R97). -/
def execLdec (imm : Byte) (s : State) : Result := ldecWith Config.params imm s

/-- LDECS with the parameters given: legacy decode, the seed being the last input byte, whatever its value
(41_legacy_cipher.md R98; 30_encoding.md R73). -/
def ldecsWith (c : Params) (s : State) : Result :=
  let n := s.ilen
  if n = 0 then fails .invalidLength s
  else finishWith c (legacyXor (inputSlice s 0 (n - 1)) (s.ibuf.read (n - 1))) s

/-- LDECS (41_legacy_cipher.md R98). -/
def execLdecs (s : State) : Result := ldecsWith Config.params s

end Sys2Proof.Machine
end

