-- ==== Sys2Proof/Machine/Frame.lean ====
section
/-!
DEFINITION. The frame envelope parser and builder and its six commands (43_frame.md). The byte layouts are
30_encoding.md R69 to R72. LOG 9 for the legacy layout.
-/
namespace Sys2Proof.Machine

/-! ## Parsing (43_frame.md R124 to R126) -/

/-- The fields of a raw frame before its payload (30_encoding.md R69, R70); `hl` is the header length. -/
structure FrameHeader where
  hl    : Nat
  pt    : Byte
  pv    : Byte
  scene : Byte
  gid   : BitVec 16
  oid   : BitVec 16
  cmd   : Byte
  ef    : Byte
  len   : Byte
deriving DecidableEq, Repr

/-- The modern header: 12 bytes (30_encoding.md R69). -/
def modernHeader (f : List Byte) : FrameHeader where
  hl := 12
  pt := byteAt f 2
  pv := byteAt f 3
  scene := byteAt f 4
  gid := be16 (byteAt f 5) (byteAt f 6)
  oid := be16 (byteAt f 7) (byteAt f 8)
  cmd := byteAt f 9
  ef := byteAt f 10
  len := byteAt f 11

/-- The legacy header: 6 bytes, with no protocolVersion, scene, groupId or orgId, which are 0
(30_encoding.md R70; 10_state.md R29, R30). -/
def legacyHeader (f : List Byte) : FrameHeader where
  hl := 6
  pt := byteAt f 2
  pv := 0#8
  scene := 0#8
  gid := 0#16
  oid := 0#16
  cmd := byteAt f 3
  ef := byteAt f 4
  len := byteAt f 5

/-- The header of a raw frame, or FRAME_TOO_SHORT (43_frame.md R124; 60_exceptions.md R149). -/
def parseHeader (f : List Byte) : Except ErrorCode FrameHeader :=
  if f.length < 7 then .error .frameTooShort
  else if isModern (byteAt f 2) then
    if f.length < 13 then .error .frameTooShort else .ok (modernHeader f)
  else .ok (legacyHeader f)

/-- The header of a raw frame whose payloadLength passes both checks, else the first error
(43_frame.md R124; 30_encoding.md R71; order in 60_exceptions.md R157). -/
def parseFrame (f : List Byte) : Except ErrorCode FrameHeader :=
  match parseHeader f with
  | .error e => .error e
  | .ok h =>
    if sext8 h.len < 0 then .error .invalidLength
    else if f.length < h.hl + h.len.toNat + 1 then .error .invalidLength
    else .ok h

/-- The frame registers after a successful FPARSE of `f` (43_frame.md R124, R125). The header bytes are
stored unchecked (43_frame.md R138); bytes between the payload and the last byte are covered by the CRC
only. -/
def parsedRegs (c : Params) (f : List Byte) (h : FrameHeader) : FrameRegs :=
  let n := f.length
  { fstate := .parsed
    fleg := isLegacy h.pt
    fhdr := (byteAt f 0, byteAt f 1)
    fpt := h.pt
    fpv := h.pv
    fscene := h.scene
    fgid := h.gid
    foid := h.oid
    fcmd := h.cmd
    fcmdv := true
    fef := h.ef
    fplen := h.len
    fpay := byteRange f h.hl (h.hl + h.len.toNat)
    fcrcrx := byteAt f (n - 1)
    fcrccalc := crc8 (byteRange f 0 (n - 1))
    fcrcok := crc8 (byteRange f 0 (n - 1)) == byteAt f (n - 1)
    flvar := c.lockVariant h.pt h.pv h.scene
    fdone := false
    fplain := [] }

/-- FPARSE with the parameters given: the input as a raw frame into the frame registers; an error also drops
the held frame (43_frame.md R124, R126). -/
def fparseWith (c : Params) (s : State) : Result :=
  match parseFrame (input s) with
  | .error e => fails e (dropFrame s)
  | .ok h => .next (finish (setFrame (parsedRegs c (input s) h) s))

/-- FPARSE (43_frame.md R124). -/
def execFparse (s : State) : Result := fparseWith Config.params s

/-! ## Decoding the payload (43_frame.md R127 to R129) -/

/-- The plaintext of the held payload, or why there is none: a legacy payload through the legacy cipher
with key FEF; an empty modern payload is not encrypted; any other modern payload is AES-CBC under KEY
(43_frame.md R128; FEF is not consulted for modern frames, 90_conflicts.md C4). -/
def decodePayload (s : State) : Except ErrorCode (List Byte) :=
  if s.frame.fleg then .ok (legacyXor s.frame.fpay s.frame.fef)
  else if s.frame.fplen = 0#8 then .ok []
  else if s.kvalid = false then .error .commandNotReady
  else
    match cbcDec s.frame.fpay s.key with
    | none => .error .decryption
    | some p => .ok p

/-- FDATA with the parameters given: the held frame's payload decoded to the output and cached; a cached
payload is returned with nothing checked and nothing decoded (43_frame.md R128, R129; order in
60_exceptions.md R157). -/
def fdataWith (c : Params) (s : State) : Result :=
  if s.frame.fstate ≠ .parsed then fails .commandNotReady s
  else if s.frame.fdone then finishWith c s.frame.fplain s
  else if crcOk s = false then fails .crcMismatch s
  else
    match decodePayload s with
    | .error e => fails e s
    | .ok p => finishWith c p (cachePlain p s)

/-- FDATA (43_frame.md R128). -/
def execFdata (s : State) : Result := fdataWith Config.params s

/-! ## Building (43_frame.md R130 to R136) -/

/-- The frame registers after FINIT from the 7-byte descriptor `d` with encryptFlag `ef`
(43_frame.md R130; 30_encoding.md R72). -/
def shellRegs (c : Params) (d : List Byte) (ef : Byte) : FrameRegs where
  fstate := .shell
  fleg := isLegacy (byteAt d 0)
  fhdr := (Config.header0, Config.header1)
  fpt := byteAt d 0
  fpv := byteAt d 1
  fscene := byteAt d 2
  fgid := be16 (byteAt d 3) (byteAt d 4)
  foid := be16 (byteAt d 5) (byteAt d 6)
  fcmd := 0x00#8
  fcmdv := false
  fef := ef
  fplen := 0x00#8
  fpay := []
  fcrcrx := 0x00#8
  fcrccalc := 0x00#8
  fcrcok := false
  flvar := c.lockVariant (byteAt d 0) (byteAt d 1) (byteAt d 2)
  fdone := false
  fplain := []

/-- FINIT with the parameters and the draw given: a shell from the descriptor in the input, the encryptFlag
being the drawn seed for a legacy-V2 protocolType and APP_COMMAND_FLAG for every other
(43_frame.md R130, R131). The draw is spent only when it is used and the command does not fail
(20_memory.md R57; 60_exceptions.md R148). LOG 19. -/
def finitWith (c : Params) (draw : Fin 127) (s : State) : Result :=
  if s.ilen ≠ 7 then fails .invalidLength s
  else if drawsEncryptFlag c (byteAt (input s) 0) then
    .next (finish (setFrame (shellRegs c (input s) (seedOf draw)) (consumeDraw s)))
  else .next (finish (setFrame (shellRegs c (input s) c.appCommandFlag) s))

/-- FINIT (43_frame.md R130). LOG 3. -/
def execFinit (s : State) : Result := finitWith Config.params (nextDraw s) s

/-- FSETCMD: FCMD <- imm, FCMDV <- 1; COMMAND_NOT_READY when no frame is held (43_frame.md R132). -/
def execFsetcmd (imm : Byte) (s : State) : Result :=
  if s.frame.fstate = .empty then fails .commandNotReady s
  else .next (finish (setCommandType imm s))

/-- FSETEF: FEF <- imm; COMMAND_NOT_READY when no frame is held (43_frame.md R133). -/
def execFsetef (imm : Byte) (s : State) : Result :=
  if s.frame.fstate = .empty then fails .commandNotReady s
  else .next (finish (setEncryptFlag imm s))

/-- The modern header that FBUILD emits, `n` being the length of the ciphertext (43_frame.md R134, R135;
30_encoding.md R69). -/
def modernPrefix (r : FrameRegs) (n : Nat) : List Byte :=
  [Config.header0, Config.header1, r.fpt, r.fpv, r.fscene, hiByte r.fgid, loByte r.fgid,
   hiByte r.foid, loByte r.foid, r.fcmd, r.fef, BitVec.ofNat 8 n]

/-- The legacy header that FBUILD emits, `n` being the length of the payload (43_frame.md R134, R136;
30_encoding.md R70). -/
def legacyPrefix (r : FrameRegs) (n : Nat) : List Byte :=
  [Config.header0, Config.header1, r.fpt, r.fcmd, r.fef, BitVec.ofNat 8 n]

/-- The frame without its CRC byte, or the first error (43_frame.md R134; order in
60_exceptions.md R157). -/
def frameBody (s : State) : Except ErrorCode (List Byte) :=
  let p := input s
  if s.frame.fleg then
    if p.length > 127 then .error .invalidLength
    else .ok (legacyPrefix s.frame p.length ++ legacyXor p s.frame.fef)
  else if p.length > 0 ∧ s.kvalid = false then .error .missingAesKey
  else
    let c := if p.length > 0 then cbcEnc p s.key else []
    if c.length > 127 then .error .invalidLength
    else .ok (modernPrefix s.frame c.length ++ c)

/-- FBUILD with the parameters given: the held frame serialised with the input as its plaintext payload and the CRC appended; no
frame register is written (43_frame.md R134). -/
def fbuildWith (c : Params) (s : State) : Result :=
  if s.frame.fstate = .empty ∨ s.frame.fcmdv = false then fails .commandNotReady s
  else
    match frameBody s with
    | .error e => fails e s
    | .ok body => finishWith c (body ++ [crc8 body]) s

/-- FBUILD (43_frame.md R134). -/
def execFbuild (s : State) : Result := fbuildWith Config.params s

end Sys2Proof.Machine
end

