-- ==== Sys2Proof/Machine/Dispatch.lean ====
section
/-!
DEFINITION. One arm per command of the opcode map (30_encoding.md R64), each one call of its meaning.
-/
namespace Sys2Proof.Machine

def exec (i : Instr) (s : State) : Host.Outcome State Fault Refusal :=
  match i with
  | .nop => Sys2Proof.Machine.execNop s
  | .crc8 => Sys2Proof.Machine.execCrc8 s
  | .crclut imm => Sys2Proof.Machine.execCrclut imm s
  | .movoi => Sys2Proof.Machine.execMovoi s
  | .lenc imm => Sys2Proof.Machine.execLenc imm s
  | .lencr => Sys2Proof.Machine.execLencr s
  | .ldec imm => Sys2Proof.Machine.execLdec imm s
  | .ldecs => Sys2Proof.Machine.execLdecs s
  | .kload => Sys2Proof.Machine.execKload s
  | .kclr => Sys2Proof.Machine.execKclr s
  | .aesenc => Sys2Proof.Machine.execAesenc s
  | .aesdec => Sys2Proof.Machine.execAesdec s
  | .fparse => Sys2Proof.Machine.execFparse s
  | .fdata => Sys2Proof.Machine.execFdata s
  | .finit => Sys2Proof.Machine.execFinit s
  | .fsetcmd imm => Sys2Proof.Machine.execFsetcmd imm s
  | .fsetef imm => Sys2Proof.Machine.execFsetef imm s
  | .fbuild => Sys2Proof.Machine.execFbuild s
  | .cfgw imm => Sys2Proof.Machine.execCfgw imm s

end Sys2Proof.Machine
end

