-- ==== Sys2Proof/Machine/Port.lean ====
section
/-!
DEFINITION. The host's port: what each host action does (70_reset_and_hazards.md R178; 30_encoding.md R65,
R76). Each action runs to completion before the next is taken (20_memory.md R59;
70_reset_and_hazards.md R175).
-/
namespace Sys2Proof.Machine

/-- LOAD: IBUF[0..len) and ILEN, no STATUS change; a string of more than IBUF_CAP bytes is refused
(10_state.md R20; 70_reset_and_hazards.md R178). LOG 12. -/
def hostLoad (c : Params) (bytes : List Byte) (s : State) : Result :=
  match setInput c bytes s with
  | some t => .next t
  | none => .refused .loadTooLong

/-- A command word: decoded, then executed; an illegal word ends in ILLEGAL_COMMAND and changes nothing
but STATUS and ERRACC (30_encoding.md R65; 60_exceptions.md R156). -/
def issueWord (cw : CommandWord) (s : State) : Result :=
  match decode cw with
  | .ok i => exec i s
  | .error _ => fails .illegalCommand s

/-- READ: the host gets the register's value; nothing in the block changes
(20_memory.md R57; 70_reset_and_hazards.md R178). LOG 13. -/
def hostRead (c : Params) (r : RegName) (s : State) : Result :=
  .next { s with reply := some (readReg c r s) }

/-- RESET: every register to its reset value (70_reset_and_hazards.md R165, R166). The host's coming
actions, what it has read and the draws spent are not registers and stay. LOG 20. -/
def hostReset (s : State) : Result :=
  .next { State.reset with port := s.port, reply := s.reply, draws := s.draws }

/-- One host action (70_reset_and_hazards.md R178). -/
def perform (a : HostAction) (s : State) : Result :=
  match a with
  | .load bytes => hostLoad Config.params bytes s
  | .issue cw => issueWord cw s
  | .read r => hostRead Config.params r s
  | .reset => hostReset s

/-- The host's next action and the state with it taken from the port, if there is one. LOG 1. -/
def takeAction (s : State) : Option (HostAction × State) :=
  match s.port with
  | [] => none
  | a :: rest => some (a, { s with port := rest })

/-- The state with an action placed so that it is the host's next one. -/
def placeAction (a : HostAction) (s : State) : State := { s with port := a :: s.port }

/-- One step: the host's next action is performed; with none pending the block waits, unchanged
(70_reset_and_hazards.md R167, R177). LOG 1, 2. -/
def stepPort (s : State) : Result :=
  match takeAction s with
  | none => .next s
  | some (a, t) => perform a t

end Sys2Proof.Machine
end

