-- ==== Sys2Proof/Machine/Step.lean ====
section
/-!
DEFINITION. The step of the machine, and how the host places one word where the step takes its next
instruction.
-/
namespace Sys2Proof.Machine

/-- One step of the block: one host action, wholly (10_state.md R41; 20_memory.md R56, R59). -/
def step (s : State) : Host.Outcome State Fault Refusal := stepPort s

/-- The state with a command word as the host's next action; the numbering is that of
spec/opcode_table.json. The block fetches nothing (10_state.md R18), so this stands for the host issuing
the word. LOG 1. -/
def State.withFetchWord (s : State) (nbits w : Nat) : State := placeAction (.issue (tableWord nbits w)) s

end Sys2Proof.Machine
end

