-- ==== Sys2Proof/WellFormed.lean ====
section
/-!
DEFINITION. Which command words, host actions and source lines are well formed (30_encoding.md R66, R75
to R77; 10_state.md R20). Every term of `Instr` is well formed as it stands: its one operand is a byte, and
an "imm" row admits every byte (30_encoding.md R63). What can be ill formed is a word, an action or a line.
-/
namespace Sys2Proof

/-- The opcodes that are not used, as ranges (30_encoding.md R66). -/
def unusedOpcode (op : Byte) : Bool :=
  let n := op.toNat
  (0x04 ≤ n && n ≤ 0x0F) || (0x14 ≤ n && n ≤ 0x1F) || (0x24 ≤ n && n ≤ 0x2F) ||
    (0x36 ≤ n && n ≤ 0x3F) || (0x41 ≤ n && n ≤ 0xFF)

/-- The opcodes whose row says "imm": CRCLUT, LENC, LDEC, FSETCMD, FSETEF, CFGW (30_encoding.md R64). -/
def takesImmediate (op : Byte) : Bool :=
  op ∈ [0x02#8, 0x10#8, 0x12#8, 0x33#8, 0x34#8, 0x40#8]

/-- RSV is zero (30_encoding.md R66, first case). -/
def reservedClear (cw : CommandWord) : Bool := cw.extractLsb' 16 16 == 0#16

/-- OP is one of the 19 values (30_encoding.md R66, second case). -/
def opcodeUsed (cw : CommandWord) : Bool := !unusedOpcode (cw.extractLsb' 0 8)

/-- IMM8 is zero unless the row says "imm" (30_encoding.md R66, third case). -/
def immediateAdmitted (cw : CommandWord) : Bool :=
  takesImmediate (cw.extractLsb' 0 8) || cw.extractLsb' 8 8 == 0#8

/-- A legal command word: none of the three cases of 30_encoding.md R66 holds. -/
def wellFormedWord (cw : CommandWord) : Bool :=
  reservedClear cw && opcodeUsed cw && immediateAdmitted cw

/-- A host action the host can make: a LOAD of at most IBUF_CAP bytes (10_state.md R20;
70_reset_and_hazards.md R178). -/
def HostAction.wellFormed : HostAction → Bool
  | .load s => s.length ≤ Config.ibufCap
  | .issue _ => true
  | .read _ => true
  | .reset => true

/-- An operand as written: present, and 0..255, exactly for an "imm" command (30_encoding.md R75). -/
def operandAdmitted (op : Byte) : Option Nat → Bool
  | none => !takesImmediate op
  | some n => takesImmediate op && n ≤ 255

/-- A source line that assembles (30_encoding.md R75 to R77; the descriptor's widths are those of
30_encoding.md R72). -/
def SourceLine.wellFormed : SourceLine → Bool
  | .command op operand => !unusedOpcode op && operandAdmitted op operand
  | .load s => s.length ≤ Config.ibufCap
  | .reset => true
  | .read _ => true
  | .setkey s => s.length == 16
  | .desc pt pv scene gid oid => pt ≤ 255 && pv ≤ 255 && scene ≤ 255 && gid ≤ 65535 && oid ≤ 65535
  | .strict => true
  | .nocrc => true
  | .parse s => s.length ≤ Config.ibufCap

end Sys2Proof
end

