-- ==== Sys2Proof/Machine/Assembler.lean ====
section
/-!
DEFINITION. The assembler: one line of text to a source line, and a source line to the host actions it
stands for (30_encoding.md R75 to R77). The lexical details the rules do not give are LOG 22.
-/
namespace Sys2Proof.Machine

/-! ## Source lines to host actions -/

/-- A byte from a number in range. -/
def asByte (n : Nat) : Byte := BitVec.ofNat 8 n

/-- The 7-byte descriptor `[pt, pv, scene, gid>>8, gid&0xFF, oid>>8, oid&0xFF]` (30_encoding.md R77, R72). -/
def descriptorBytes (pt pv scene gid oid : Nat) : List Byte :=
  [asByte pt, asByte pv, asByte scene, asByte (gid / 256), asByte (gid % 256),
   asByte (oid / 256), asByte (oid % 256)]

/-- The host actions of a well-formed source line (30_encoding.md R75 to R77). -/
def expandLine (l : SourceLine) : List HostAction :=
  match l with
  | .command op none => [.issue (assembleWord op 0#8)]
  | .command op (some n) => [.issue (assembleWord op (asByte n))]
  | .load bytes => [.load bytes]
  | .reset => [.reset]
  | .read r => [.read r]
  | .setkey bytes => [.load bytes, .issue (encode .kload)]
  | .desc pt pv scene gid oid => [.load (descriptorBytes pt pv scene gid oid), .issue (encode .finit)]
  | .strict => [.issue (encode (.cfgw 0x00#8))]
  | .nocrc => [.issue (encode (.cfgw 0x01#8))]
  | .parse bytes => [.load bytes, .issue (encode .fparse)]

/-- The host actions of a source line, none where the line is ill formed. -/
def assembleSource (l : SourceLine) : Option (List HostAction) :=
  if l.wellFormed then some (expandLine l) else none

/-! ## Text to source lines -/

/-- The mnemonics of 30_encoding.md R64 with their opcodes. -/
def mnemonics : List (String × Byte) :=
  [("NOP", 0x00#8), ("CRC8", 0x01#8), ("CRCLUT", 0x02#8), ("MOVOI", 0x03#8),
   ("LENC", 0x10#8), ("LENCR", 0x11#8), ("LDEC", 0x12#8), ("LDECS", 0x13#8),
   ("KLOAD", 0x20#8), ("KCLR", 0x21#8), ("AESENC", 0x22#8), ("AESDEC", 0x23#8)] ++
  [("FPARSE", 0x30#8), ("FDATA", 0x31#8), ("FINIT", 0x32#8), ("FSETCMD", 0x33#8),
   ("FSETEF", 0x34#8), ("FBUILD", 0x35#8), ("CFGW", 0x40#8)]

/-- The register names of 10_state.md R19 outside the frame unit, for READ. -/
def blockRegisterNames : List (String × RegName) :=
  [("IBUF", .ibuf), ("ILEN", .ilen), ("OBUF", .obuf), ("OLEN", .olen), ("KEY", .key),
   ("KVALID", .kvalid), ("CFG", .cfg), ("STATUS", .status), ("ERRACC", .erracc)]

/-- The names of the frame registers (10_state.md R19), for READ. -/
def frameRegisterNames : List (String × RegName) :=
  [("FSTATE", .fstate), ("FLEG", .fleg), ("FHDR", .fhdr), ("FPT", .fpt), ("FPV", .fpv),
   ("FSCENE", .fscene), ("FGID", .fgid), ("FOID", .foid), ("FCMD", .fcmd), ("FCMDV", .fcmdv),
   ("FEF", .fef), ("FPLEN", .fplen), ("FPAY", .fpay), ("FCRCRX", .fcrcrx),
   ("FCRCCALC", .fcrccalc), ("FCRCOK", .fcrcok), ("FLVAR", .flvar), ("FDONE", .fdone),
   ("FPLAIN", .fplain)]

/-- The entry of a name in a table. -/
def lookupName {α : Type} (table : List (String × α)) (name : List Char) : Option α :=
  match table with
  | [] => none
  | (n, v) :: rest => if n.toList = name then some v else lookupName rest name

/-- The value of a hexadecimal digit, in either case. -/
def hexDigit (c : Char) : Option Nat :=
  let n := c.toNat
  if 48 ≤ n ∧ n ≤ 57 then some (n - 48)
  else if 97 ≤ n ∧ n ≤ 102 then some (n - 87)
  else if 65 ≤ n ∧ n ≤ 70 then some (n - 55)
  else none

/-- The value of a decimal digit. -/
def decimalDigit (c : Char) : Option Nat :=
  let n := c.toNat
  if 48 ≤ n ∧ n ≤ 57 then some (n - 48) else none

/-- The value of a string of digits in a base, continuing from `acc`. -/
def digitsFrom (base : Nat) (digit : Char → Option Nat) (acc : Nat) (cs : List Char) : Option Nat :=
  match cs with
  | [] => some acc
  | c :: rest =>
    match digit c with
    | none => none
    | some d => digitsFrom base digit (acc * base + d) rest

/-- A number: `0x` and hexadecimal digits, or decimal digits (30_encoding.md R75). -/
def parseNumber (cs : List Char) : Option Nat :=
  match cs with
  | [] => none
  | '0' :: 'x' :: c :: rest => digitsFrom 16 hexDigit 0 (c :: rest)
  | c :: rest => digitsFrom 10 decimalDigit 0 (c :: rest)

/-- A hex string: the bytes in order, two digits each (00_scope.md R13). -/
def parseHex (cs : List Char) : Option (List Byte) :=
  match cs with
  | [] => some []
  | [_] => none
  | a :: b :: rest =>
    match hexDigit a, hexDigit b, parseHex rest with
    | some x, some y, some bytes => some (asByte (16 * x + y) :: bytes)
    | _, _, _ => none

/-- The text of a line before its comment (30_encoding.md R75). -/
def stripComment (line : List Char) : List Char := line.takeWhile (· ≠ ';')

/-- The words of a line: split at blanks and tabs, a comma being a word of its own. `word` is the word
read so far, in reverse. -/
def wordsFrom (word : List Char) (cs : List Char) : List (List Char) :=
  let done := if word = [] then [] else [word.reverse]
  match cs with
  | [] => done
  | c :: rest =>
    if c = ' ' ∨ c = '\t' then done ++ wordsFrom [] rest
    else if c = ',' then done ++ [','] :: wordsFrom [] rest
    else wordsFrom (c :: word) rest

/-- The five numbers of DESC, with commas between them (30_encoding.md R77). -/
def parseDescriptor (args : List (List Char)) : Option SourceLine :=
  match args with
  | [pt, k1, pv, k2, scene, k3, gid, k4, oid] =>
    if [k1, k2, k3, k4] ≠ List.replicate 4 [','] then none
    else do
      let a ← parseNumber pt
      let b ← parseNumber pv
      let c ← parseNumber scene
      let d ← parseNumber gid
      let e ← parseNumber oid
      return .desc a b c d e
  | _ => none

/-- A host action or pseudo-instruction with its operand words (30_encoding.md R76, R77). -/
def parseDirective (name : List Char) (args : List (List Char)) : Option SourceLine :=
  if name = "LOAD".toList then
    match args with
    | [] => some (.load [])
    | [hex] => (parseHex hex).map .load
    | _ => none
  else if name = "RESET".toList then
    if args = [] then some .reset else none
  else if name = "READ".toList then
    match args with
    | [r] => (lookupName (blockRegisterNames ++ frameRegisterNames) r).map .read
    | _ => none
  else if name = "SETKEY".toList then
    match args with
    | [hex] => (parseHex hex).map .setkey
    | _ => none
  else if name = "DESC".toList then parseDescriptor args
  else if name = "STRICT".toList then
    if args = [] then some .strict else none
  else if name = "NOCRC".toList then
    if args = [] then some .nocrc else none
  else if name = "PARSE".toList then
    match args with
    | [hex] => (parseHex hex).map .parse
    | _ => none
  else none

/-- A command with its operand words (30_encoding.md R75). -/
def parseCommand (op : Byte) (args : List (List Char)) : Option SourceLine :=
  match args with
  | [] => some (.command op none)
  | [n] => (parseNumber n).map fun v => .command op (some v)
  | _ => none

/-- One line of text: no source line where only blanks and a comment stand; `none` where the text is no
line of the syntax. -/
def parseLine (line : List Char) : Option (Option SourceLine) :=
  match wordsFrom [] (stripComment line) with
  | [] => some none
  | name :: args =>
    match lookupName mnemonics name with
    | some op => (parseCommand op args).map some
    | none => (parseDirective name args).map some

/-- The host actions of one line of text (30_encoding.md R75 to R77). -/
def assembleLine (line : List Char) : Option (List HostAction) :=
  match parseLine line with
  | none => none
  | some none => some []
  | some (some l) => assembleSource l

/-- The host actions of a program, line by line. -/
def assembleProgram (lines : List (List Char)) : Option (List HostAction) :=
  match lines with
  | [] => some []
  | l :: rest =>
    match assembleLine l, assembleProgram rest with
    | some a, some b => some (a ++ b)
    | _, _ => none

end Sys2Proof.Machine
end

