-- ==== Sys2Proof/Machine/Block.lean ====
section
/-!
DEFINITION. The block as a function of its arguments: the parameters, one draw, the command word or host
action, and the state (10_state.md R41). `exec`, `step` and `run` are this function at `Config.params` and at
the next draw; the host's interface fixes their types, so they take these two from Config and from `draws`.
-/
namespace Sys2Proof.Machine

/-- One command with the parameters and one draw given. The draw is used only by LENCR and FINIT
(10_state.md R41). -/
def command (c : Params) (draw : Fin 127) (i : Instr) (s : State) : Result :=
  match i with
  | .nop => execNop s
  | .crc8 => crc8With c s
  | .crclut imm => crclutWith c imm s
  | .movoi => movoiWith c s
  | .lenc imm => lencWith c imm s
  | .lencr => lencrWith c draw s
  | .ldec imm => ldecWith c imm s
  | .ldecs => ldecsWith c s
  | .kload => execKload s
  | .kclr => execKclr s
  | .aesenc => aesencWith c s
  | .aesdec => aesdecWith c s
  | .fparse => fparseWith c s
  | .fdata => fdataWith c s
  | .finit => finitWith c draw s
  | .fsetcmd imm => execFsetcmd imm s
  | .fsetef imm => execFsetef imm s
  | .fbuild => fbuildWith c s
  | .cfgw imm => execCfgw imm s

/-- A command word with the parameters and one draw given (30_encoding.md R65). -/
def commandWord (c : Params) (draw : Fin 127) (cw : CommandWord) (s : State) : Result :=
  match decode cw with
  | .ok i => command c draw i s
  | .error _ => fails .illegalCommand s

/-- A step of the block: "a function of (state, command word, one draw) to (state, STATUS code)"
(10_state.md R41). -/
def blockStep (c : Params) (draw : Fin 127) (cw : CommandWord) (s : State) :
    Host.Outcome (State × BitVec 8) Fault Refusal :=
  match commandWord c draw cw s with
  | .next t => .next (t, t.status)
  | .fault f => .fault f
  | .refused r => .refused r

/-- One host action with the parameters and one draw given (70_reset_and_hazards.md R178). -/
def blockAction (c : Params) (draw : Fin 127) (a : HostAction) (s : State) : Result :=
  match a with
  | .load bytes => hostLoad c bytes s
  | .issue cw => commandWord c draw cw s
  | .read r => hostRead c r s
  | .reset => hostReset s

end Sys2Proof.Machine
end

