-- ==== Sys2Proof/Safety.lean ====
section
/-!
DEFINITION. What every reachable state satisfies (10_state.md R39), what a run is and what it shows
(70_reset_and_hazards.md R177), and what a run without errors is (60_exceptions.md R164).
-/
namespace Sys2Proof.Machine

/-! ## Invariants -/

/-- The first invariant of 10_state.md R39, `ILEN <= IBUF_CAP` and `OLEN <= OBUF_CAP`; and both buffers hold
only indices of their spaces (20_memory.md R48) and are in canonical form. -/
abbrev BuffersOk (c : Params) (s : State) : Prop :=
  s.ilen ≤ c.ibufCap ∧ s.olen ≤ c.obufCap ∧
    Memory.wf s.ibuf ∧ Memory.within c.ibufCap s.ibuf ∧
    Memory.wf s.obuf ∧ Memory.within c.obufCap s.obuf

/-- The frame invariants of 10_state.md R39 (third, fourth and fifth), with the widths of FPAY and FPLAIN
(10_state.md R19, R36) and the meaning of FCRCOK (10_state.md R34). -/
abbrev FrameOk (f : FrameRegs) : Prop :=
  (f.fstate = .parsed →
      f.fplen.toNat ≤ 127 ∧ f.fpay.length = f.fplen.toNat ∧ f.fleg = isLegacy f.fpt ∧
        f.fcmdv = true ∧ f.fcrcok = (f.fcrccalc == f.fcrcrx)) ∧
    (f.fstate = .shell → f.fplen = 0#8 ∧ f.fpay = [] ∧ f.fcrcok = false) ∧
    (f.fdone = true → f.fstate ≠ .shell) ∧
    f.fpay.length ≤ 127 ∧ f.fplain.length ≤ 127

/-- `CFG[7:1] = 0` (10_state.md R39, sixth). -/
abbrev ConfigOk (s : State) : Prop := cfgReserved s.cfg = 0#7

/-- `ERRACC[0] = 0` and `ERRACC[15:9] = 0` (10_state.md R39, seventh); STATUS is one of the codes 0 to 8
(60_exceptions.md R146). -/
abbrev ErrorsOk (s : State) : Prop :=
  s.erracc.getLsbD 0 = false ∧ s.erracc.extractLsb' 9 7 = 0#7 ∧ s.status.toNat ≤ 8

/-- The invariants that every reachable state satisfies (10_state.md R39). The second, `FSTATE` is 0, 1 or
2, holds by the type of FSTATE. -/
abbrev Invariants (c : Params) (s : State) : Prop :=
  BuffersOk c s ∧ FrameOk s.frame ∧ ConfigOk s ∧ ErrorsOk s

/-! ## Runs -/

/-- Whether an action is a command word, after which the host is given STATUS
(70_reset_and_hazards.md R178). -/
def isCommand (a : HostAction) : Bool :=
  match a with
  | .load _ => false
  | .issue _ => true
  | .read _ => false
  | .reset => false

/-- A run: the host's actions applied one after the other. It gives the end state and the STATUS after
each command, which is what a run shows (70_reset_and_hazards.md R177); `none` where an action has no
next state. -/
def run (actions : List HostAction) (s : State) : Option (State × List (BitVec 8)) :=
  match actions with
  | [] => some (s, [])
  | a :: rest =>
    match perform a s with
    | .next t =>
      match run rest t with
      | some (u, codes) => some (u, if isCommand a then t.status :: codes else codes)
      | none => none
    | .fault _ => none
    | .refused _ => none

/-- A run with everything that is outside the state given: the parameters, the draws of SEED_DRAW in the
order they are used, and the host's sequence of actions (10_state.md R41; 70_reset_and_hazards.md R177). -/
def blockRun (c : Params) (draws : Nat → Fin 127) (actions : List HostAction) (s : State) :
    Option (State × List (BitVec 8)) :=
  match actions with
  | [] => some (s, [])
  | a :: rest =>
    match blockAction c (draws s.draws) a s with
    | .next t =>
      match blockRun c draws rest t with
      | some (u, codes) => some (u, if isCommand a then t.status :: codes else codes)
      | none => none
    | .fault _ => none
    | .refused _ => none

/-- No command has ended in an error since reset (60_exceptions.md R164). -/
abbrev NoErrors (s : State) : Prop := s.erracc = 0x0000#16

end Sys2Proof.Machine
end

