-- ==== Sys2Proof/Certificates/Slice0/Obligations.lean ====
section
/-!
DEFINITION. The statements for the provers, in the order of OBLIGATIONS.json, and the words they are written
in. No statement rests on the value of a free value: where one enters, the statement gives its range only.
-/
namespace Sys2Proof.Claims

open Sys2Proof.Machine

/-! ## What a command keeps: `s` before, `t` after -/

/-- ILEN and every byte of IBUF are kept. -/
def KeepsInput (s t : State) : Prop := t.ilen = s.ilen ∧ ∀ a, t.ibuf.read a = s.ibuf.read a

/-- OLEN and every byte of OBUF are kept. -/
def KeepsOutput (s t : State) : Prop := t.olen = s.olen ∧ ∀ a, t.obuf.read a = s.obuf.read a

/-- KEY and KVALID are kept. -/
def KeepsKey (s t : State) : Prop := t.key = s.key ∧ t.kvalid = s.kvalid

/-- The model's own fields but `draws` are kept. -/
def KeepsHostSide (s t : State) : Prop := t.port = s.port ∧ t.reply = s.reply

/-- All is kept but STATUS, ERRACC, the frame registers and the count of draws. -/
def KeepsAllButFrame (s t : State) : Prop :=
  KeepsInput s t ∧ KeepsOutput s t ∧ KeepsKey s t ∧ t.cfg = s.cfg ∧ KeepsHostSide s t

/-- STATUS = OK, and ERRACC is kept. -/
def EndsOk (s t : State) : Prop := t.status = 0x00#8 ∧ t.erracc = s.erracc

/-- STATUS is the error code, and ERRACC has gained its bit (60_exceptions.md R148). -/
def EndsInError (code : Nat) (s t : State) : Prop :=
  t.status = BitVec.ofNat 8 code ∧ t.erracc = s.erracc ||| (1#16 <<< code)

/-- The command ended in the error code and wrote nothing but STATUS and ERRACC
(60_exceptions.md R148). -/
def ErrorOnly (code : Nat) (s t : State) : Prop :=
  EndsInError code s t ∧ KeepsAllButFrame s t ∧ t.frame = s.frame ∧ t.draws = s.draws

/-- The command ended in the error code, wrote STATUS and ERRACC, and dropped the held frame
(43_frame.md R126). -/
def ErrorDroppingFrame (code : Nat) (s t : State) : Prop :=
  EndsInError code s t ∧ KeepsAllButFrame s t ∧
    t.frame = { s.frame with fstate := .empty } ∧ t.draws = s.draws

/-- The output is exactly `bytes`, and OBUF above it is kept (00_scope.md R14). -/
def Outputs (bytes : List Byte) (s t : State) : Prop :=
  output t = bytes ∧ t.olen = bytes.length ∧
    ∀ a, bytes.length ≤ a → t.obuf.read a = s.obuf.read a

/-- All but the output, STATUS, the frame registers and the count of draws is kept. -/
def KeepsAllButOutputAndFrame (s t : State) : Prop :=
  KeepsInput s t ∧ KeepsKey s t ∧ t.cfg = s.cfg ∧ KeepsHostSide s t

/-- The command ended OK, its output is exactly `bytes`, and nothing else was written. -/
def OkWithOutput (bytes : List Byte) (s t : State) : Prop :=
  EndsOk s t ∧ Outputs bytes s t ∧ KeepsAllButOutputAndFrame s t ∧ t.frame = s.frame ∧
    t.draws = s.draws

/-- Byte `i` of IBUF. -/
def inByte (s : State) (i : Nat) : Byte := s.ibuf.read i

/-- `legacy_xor(p, k)` written out (41_legacy_cipher.md R94). -/
def xorWith (k : Byte) (p : List Byte) : List Byte :=
  p.map fun b => k ^^^ b ^^^ crc8Table (BitVec.ofNat 8 (p.length % 256))

/-- A row whose IMM8 is "0": the word of the opcode is the command, and with any other immediate it is
illegal (30_encoding.md R64, R66). -/
def ZeroRow (op : Byte) (i : Instr) : Prop :=
  decode (assembleWord op 0#8) = .ok i ∧
    ∀ imm : Byte, imm ≠ 0#8 → decode (assembleWord op imm) = .error .strayImmediate

/-- A row whose IMM8 is "imm": every immediate is an operand (30_encoding.md R63, R64). -/
def ImmRow (op : Byte) (mk : Byte → Instr) : Prop :=
  ∀ imm : Byte, decode (assembleWord op imm) = .ok (mk imm)

/-! ## Assembler text (30_encoding.md R64, R75) -/

/-- The mnemonic of a command (30_encoding.md R64). -/
def mnemonicText : Instr → String
  | .nop => "NOP"
  | .crc8 => "CRC8"
  | .crclut _ => "CRCLUT"
  | .movoi => "MOVOI"
  | .lenc _ => "LENC"
  | .lencr => "LENCR"
  | .ldec _ => "LDEC"
  | .ldecs => "LDECS"
  | .kload => "KLOAD"
  | .kclr => "KCLR"
  | .aesenc => "AESENC"
  | .aesdec => "AESDEC"
  | .fparse => "FPARSE"
  | .fdata => "FDATA"
  | .finit => "FINIT"
  | .fsetcmd _ => "FSETCMD"
  | .fsetef _ => "FSETEF"
  | .fbuild => "FBUILD"
  | .cfgw _ => "CFGW"

/-- A byte written `0xNN`. -/
def hexText (b : Byte) : List Char :=
  let digit (n : Nat) : Char := "0123456789abcdef".toList.getD n '0'
  ['0', 'x', digit (b.toNat / 16), digit (b.toNat % 16)]

/-- A byte written as a decimal. -/
def decimalText (b : Byte) : List Char := Nat.toDigits 10 b.toNat

/-! ## Which commands write a register (10_state.md R19, column "written by") -/

/-- The commands that may write OBUF and OLEN. -/
def mayWriteOutput (i : Instr) : Prop :=
  i ∈ [Instr.crc8, .lencr, .ldecs, .aesenc, .aesdec, .fdata, .fbuild] ∨
    ∃ imm, i ∈ [Instr.crclut imm, .lenc imm, .ldec imm]

end Sys2Proof.Claims

open Sys2Proof Sys2Proof.Machine Sys2Proof.Claims

/-! ## Encoding (30_encoding.md) -/

/-- Decoding the word of a command gives the command, for every operand (30_encoding.md R64, R65, R75). -/
def Obligations.DecodeEncodeAgree : Prop := ∀ i : Instr, decode (encode i) = .ok i

/-- Every word that decodes is the one word of the command it decodes to (30_encoding.md R64: "Exactly one
row matches each legal word"). -/
def Obligations.DecodedWordIsTheCommandsWord : Prop :=
  ∀ (cw : CommandWord) (i : Instr), decode cw = .ok i → cw = encode i

/-- The words that decode are those for which none of the three cases of 30_encoding.md R66 holds. -/
def Obligations.LegalWordsAreTheDecodedWords : Prop :=
  ∀ cw : CommandWord, wellFormedWord cw = true ↔ ∃ i, decode cw = .ok i

/-- Words written out from the opcode map and its examples decode to their commands (30_encoding.md R64,
R75), at least one of each family. -/
def Obligations.SampleWordsDecode : Prop :=
  decode 0x00000000#32 = .ok .nop ∧
  decode 0x00000502#32 = .ok (.crclut 0x05#8) ∧
  decode 0x00002A10#32 = .ok (.lenc 0x2A#8) ∧
  decode 0x00000013#32 = .ok .ldecs ∧
  decode 0x00000023#32 = .ok .aesdec ∧
  decode 0x00005433#32 = .ok (.fsetcmd 0x54#8) ∧
  decode 0x00000035#32 = .ok .fbuild ∧
  decode 0x00000140#32 = .ok (.cfgw 0x01#8)

/-! ## The host's port (70_reset_and_hazards.md R178) -/

/-- When the host's next action is a word that decodes to `i`, the step is `exec i` on the state with that
action taken from the port; nothing else is around it. -/
def Obligations.StepRunsDecodedCommand : Prop :=
  ∀ (s : State) (cw : CommandWord) (rest : List HostAction) (i : Instr),
    s.port = .issue cw :: rest → decode cw = .ok i → step s = exec i { s with port := rest }

/-- An illegal word, and a CFGW word with a reserved bit set, ends in ILLEGAL_COMMAND (30_encoding.md R66;
60_exceptions.md R156) and changes nothing but STATUS and ERRACC (30_encoding.md R65; 60_exceptions.md R148).
That the word is at the front of the port, from which the step takes it, is the model's choice (LOG 1). -/
def Obligations.IllegalWordWritesStatusAndErraccOnly : Prop :=
  ∀ (s : State) (cw : CommandWord) (rest : List HostAction), s.port = .issue cw :: rest →
    (wellFormedWord cw = false ∨ ∃ imm : Byte, 2 ≤ imm.toNat ∧ cw = assembleWord 0x40#8 imm) →
      ∃ t, step s = .next t ∧ ErrorOnly 8 { s with port := rest } t

/-- LOAD of a string that fits replaces the input and writes nothing else, STATUS included; the bytes of
IBUF above it stay (LOG 10: the model's reading of 10_state.md R20). A longer string is refused. -/
def Obligations.LoadReplacesTheInput : Prop :=
  ∀ (s : State) (bytes : List Byte) (rest : List HostAction), s.port = .load bytes :: rest →
    (bytes.length ≤ 256 →
      ∃ t, step s = .next t ∧ input t = bytes ∧ t.ilen = bytes.length ∧
        (∀ a, bytes.length ≤ a → t.ibuf.read a = s.ibuf.read a) ∧
        KeepsOutput s t ∧ KeepsKey s t ∧ t.cfg = s.cfg ∧ t.status = s.status ∧
        t.erracc = s.erracc ∧ t.frame = s.frame ∧ t.port = rest ∧ t.reply = s.reply ∧
        t.draws = s.draws) ∧
    (256 < bytes.length → step s = .refused .loadTooLong)

/-- READ gives the host the register's value and changes nothing in the block (20_memory.md R57;
70_reset_and_hazards.md R178). -/
def Obligations.ReadChangesNothingInTheBlock : Prop :=
  ∀ (s : State) (r : RegName) (rest : List HostAction), s.port = .read r :: rest →
    step s = .next { s with port := rest, reply := some (readReg Config.params r s) }

/-- What READ gives, register by register: a number with the width of 10_state.md R19 and the register's value,
or the register's bytes in order. With any other capacities ILEN has 9 bits wherever 0..IBUF_CAP fits them, and
OLEN wherever 0..OBUF_CAP does. A number fits its width where the capacities are kept (10_state.md R39); beyond 9
bits that rests on the model's choice of width (LOG 14). FPAY and FPLAIN have at most 127 bytes where the frame
invariants hold (10_state.md R33, R36). -/
def Obligations.ReadValueFitsTheRegister : Prop :=
  ∀ s : State,
    (∃ b, readReg Config.params .ibuf s = .bytes b ∧ b.length = 256 ∧
      ∀ a, a < 256 → b[a]? = some (s.ibuf.read a)) ∧
    readReg Config.params .ilen s = .bits 9 s.ilen ∧
    (∃ b, readReg Config.params .obuf s = .bytes b ∧ b.length = 272 ∧
      ∀ a, a < 272 → b[a]? = some (s.obuf.read a)) ∧
    readReg Config.params .olen s = .bits 9 s.olen ∧
    (∃ b, readReg Config.params .key s = .bytes b ∧ b.length = 16 ∧ Block.ofBytes b = s.key) ∧
    readReg Config.params .kvalid s = .bits 1 (if s.kvalid then 1 else 0) ∧
    readReg Config.params .cfg s = .bits 8 s.cfg.toNat ∧
    readReg Config.params .status s = .bits 8 s.status.toNat ∧
    readReg Config.params .erracc s = .bits 16 s.erracc.toNat ∧
    (s.frame.fstate = .empty → readReg Config.params .fstate s = .bits 2 0) ∧
    (s.frame.fstate = .parsed → readReg Config.params .fstate s = .bits 2 1) ∧
    (s.frame.fstate = .shell → readReg Config.params .fstate s = .bits 2 2) ∧
    readReg Config.params .fleg s = .bits 1 (if s.frame.fleg then 1 else 0) ∧
    readReg Config.params .fhdr s = .bytes [s.frame.fhdr.1, s.frame.fhdr.2] ∧
    readReg Config.params .fpt s = .bits 8 s.frame.fpt.toNat ∧
    readReg Config.params .fpv s = .bits 8 s.frame.fpv.toNat ∧
    readReg Config.params .fscene s = .bits 8 s.frame.fscene.toNat ∧
    readReg Config.params .fgid s = .bits 16 s.frame.fgid.toNat ∧
    readReg Config.params .foid s = .bits 16 s.frame.foid.toNat ∧
    readReg Config.params .fcmd s = .bits 8 s.frame.fcmd.toNat ∧
    readReg Config.params .fcmdv s = .bits 1 (if s.frame.fcmdv then 1 else 0) ∧
    readReg Config.params .fef s = .bits 8 s.frame.fef.toNat ∧
    readReg Config.params .fplen s = .bits 8 s.frame.fplen.toNat ∧
    readReg Config.params .fpay s = .bytes s.frame.fpay ∧
    readReg Config.params .fcrcrx s = .bits 8 s.frame.fcrcrx.toNat ∧
    readReg Config.params .fcrccalc s = .bits 8 s.frame.fcrccalc.toNat ∧
    readReg Config.params .fcrcok s = .bits 1 (if s.frame.fcrcok then 1 else 0) ∧
    readReg Config.params .flvar s = .bits 8 s.frame.flvar.toNat ∧
    readReg Config.params .fdone s = .bits 1 (if s.frame.fdone then 1 else 0) ∧
    readReg Config.params .fplain s = .bytes s.frame.fplain ∧
    (∀ c : Params, c.ibufCap < 512 → readReg c .ilen s = .bits 9 s.ilen) ∧
    (∀ c : Params, c.obufCap < 512 → readReg c .olen s = .bits 9 s.olen) ∧
    (∀ c : Params, s.ilen ≤ c.ibufCap → s.olen ≤ c.obufCap →
      ∀ r w v, readReg c r s = .bits w v → v < 2 ^ w) ∧
    (FrameOk s.frame → s.frame.fpay.length ≤ 127 ∧ s.frame.fplain.length ≤ 127)

/-- RESET gives every register its reset value (70_reset_and_hazards.md R166) and takes the action from the
port. That the host's coming actions, its last reply and the count of draws stay is the model's choice
(LOG 20). -/
def Obligations.ResetActionRestoresEveryRegister : Prop :=
  ∀ (s : State) (rest : List HostAction), s.port = .reset :: rest →
    ∃ t, step s = .next t ∧ (∀ r, readReg Config.params r t = readReg Config.params r State.reset) ∧
      t.port = rest ∧ t.reply = s.reply ∧ t.draws = s.draws

/-- The reset column of 10_state.md R19, register by register (10_state.md R40). -/
def Obligations.ResetStateHoldsTheResetColumn : Prop :=
  (∀ a, State.reset.ibuf.read a = 0x00#8) ∧ State.reset.ilen = 0 ∧
  (∀ a, State.reset.obuf.read a = 0x00#8) ∧ State.reset.olen = 0 ∧
  Block.toBytes State.reset.key = List.replicate 16 0x00#8 ∧ State.reset.kvalid = false ∧
  State.reset.cfg = 0x00#8 ∧ State.reset.status = 0x00#8 ∧ State.reset.erracc = 0x0000#16 ∧
  State.reset.frame.fstate = .empty ∧ State.reset.frame.fleg = false ∧
  State.reset.frame.fhdr = (0x00#8, 0x00#8) ∧ State.reset.frame.fpt = 0x00#8 ∧
  State.reset.frame.fpv = 0x00#8 ∧ State.reset.frame.fscene = 0x00#8 ∧
  State.reset.frame.fgid = 0x0000#16 ∧ State.reset.frame.foid = 0x0000#16 ∧
  State.reset.frame.fcmd = 0x00#8 ∧ State.reset.frame.fcmdv = false ∧
  State.reset.frame.fef = 0x00#8 ∧ State.reset.frame.fplen = 0x00#8 ∧
  State.reset.frame.fpay = [] ∧ State.reset.frame.fcrcrx = 0x00#8 ∧
  State.reset.frame.fcrccalc = 0x00#8 ∧ State.reset.frame.fcrcok = false ∧
  State.reset.frame.flvar = 0x00#8 ∧ State.reset.frame.fdone = false ∧
  State.reset.frame.fplain = []

/-- With no host action pending the step leaves the state as it is: the model's reading of "it waits for a
host action" (70_reset_and_hazards.md R167; LOG 2). -/
def Obligations.StepWithNothingPendingWaits : Prop := ∀ s : State, s.port = [] → step s = .next s

/-! ## The whole machine -/

/-- The state after reset satisfies the invariants (10_state.md R39). -/
def Obligations.ResetStateMeetsTheInvariants : Prop := Invariants Config.params State.reset

/-- Every step keeps the invariants that 10_state.md R39 lists, ILEN and OLEN within the capacities among them,
with the canonical form of both buffers, the
widths of FPAY and FPLAIN, the range of STATUS, and for a PARSED frame FCMDV and the meaning of FCRCOK. -/
def Obligations.StepKeepsTheInvariants : Prop :=
  ∀ s t : State, Invariants Config.params s → step s = .next t → Invariants Config.params t

/-- Every command word completes from every state that meets the invariants on the buffers and the frame, for
all parameters that 00_scope.md R6 admits and every draw: the block never stops on a command, and no output
overflows OBUF (60_exceptions.md R145; 20_memory.md R50; 70_reset_and_hazards.md R177). So it is of
`issueWord`, which the step runs. -/
def Obligations.EveryCommandWordCompletes : Prop :=
  (∀ (c : Params) (draw : Fin 127) (cw : CommandWord) (s : State),
    c.Admitted → BuffersOk c s → FrameOk s.frame →
      ∃ t, blockStep c draw cw s = .next (t, t.status)) ∧
  (∀ (cw : CommandWord) (s : State), BuffersOk Config.params s → FrameOk s.frame →
    ∃ t, issueWord cw s = .next t)

/-- A command word that ends in an error writes STATUS and ERRACC and nothing else, but FSTATE <- EMPTY in a
failed FPARSE; no draw is spent (60_exceptions.md R148). -/
def Obligations.ErrorsWriteStatusAndErraccOnly : Prop :=
  ∀ (cw : CommandWord) (s t : State), issueWord cw s = .next t → t.status ≠ 0x00#8 →
    ∃ code, 1 ≤ code ∧ code ≤ 8 ∧
      if decode cw = .ok .fparse then ErrorDroppingFrame code s t else ErrorOnly code s t

/-- ERRACC gains exactly the bit of the code a command ends with, keeps the bits it has over every other host
action but RESET, and is 0 after RESET; the bits 0 and 15:9 are never set (10_state.md R25). -/
def Obligations.ErraccAccumulatesTheErrorCodes : Prop :=
  (∀ (cw : CommandWord) (s t : State), issueWord cw s = .next t →
    t.status.toNat ≤ 8 ∧
      t.erracc = s.erracc ||| (if t.status = 0x00#8 then 0x0000#16 else 1#16 <<< t.status.toNat)) ∧
  (∀ (a : HostAction) (s t : State), a ≠ .reset → perform a s = .next t →
    (isCommand a = false → t.erracc = s.erracc) ∧
    (∀ k, s.erracc.getLsbD k = true → t.erracc.getLsbD k = true) ∧
    (∀ k, k = 0 ∨ 9 ≤ k → t.erracc.getLsbD k = s.erracc.getLsbD k)) ∧
  (∀ s t : State, perform .reset s = .next t → t.erracc = 0x0000#16)

/-- A run without RESET from ERRACC = 0 ends with ERRACC = 0 exactly when every command of it ended OK: a
run that met an error cannot hide it (60_exceptions.md R164; 10_state.md R25). -/
def Obligations.ErraccZeroMeansEveryCommandEndedOk : Prop :=
  ∀ (actions : List HostAction) (s t : State) (codes : List (BitVec 8)),
    .reset ∉ actions → NoErrors s → run actions s = some (t, codes) →
      (NoErrors t ↔ ∀ c ∈ codes, c = 0x00#8)

/-- STATUS holds the outcome of the most recent command only: what a command does, and the STATUS it
leaves, do not depend on the STATUS before it (10_state.md R24). -/
def Obligations.StatusIsNotSticky : Prop :=
  ∀ (cw : CommandWord) (s : State) (old : BitVec 8),
    issueWord cw { s with status := old } = issueWord cw s

/-- IBUF, ILEN, OBUF, OLEN, KEY, KVALID and CFG are written by the commands of their rows in 10_state.md R19
and by no others; no command touches the host's side. -/
def Obligations.RegistersWrittenByTheirCommandsOnly : Prop :=
  ∀ (i : Instr) (s t : State), exec i s = .next t →
    (i ≠ .movoi → KeepsInput s t) ∧
    (¬ mayWriteOutput i → KeepsOutput s t) ∧
    (i ≠ .kload ∧ i ≠ .kclr → KeepsKey s t) ∧
    ((∀ imm, i ≠ .cfgw imm) → t.cfg = s.cfg) ∧
    KeepsHostSide s t

/-- The frame registers are written by the commands of their rows in 10_state.md R19 and by no others. -/
def Obligations.FrameRegistersWrittenByTheirCommandsOnly : Prop :=
  ∀ (i : Instr) (s t : State), exec i s = .next t → i ≠ .fparse → i ≠ .finit →
    t.frame.fstate = s.frame.fstate ∧ t.frame.fleg = s.frame.fleg ∧
    t.frame.fhdr = s.frame.fhdr ∧ t.frame.fpt = s.frame.fpt ∧ t.frame.fpv = s.frame.fpv ∧
    t.frame.fscene = s.frame.fscene ∧ t.frame.fgid = s.frame.fgid ∧
    t.frame.foid = s.frame.foid ∧ t.frame.fplen = s.frame.fplen ∧
    t.frame.fpay = s.frame.fpay ∧ t.frame.fcrcrx = s.frame.fcrcrx ∧
    t.frame.fcrccalc = s.frame.fcrccalc ∧ t.frame.fcrcok = s.frame.fcrcok ∧
    t.frame.flvar = s.frame.flvar ∧
    ((∀ imm, i ≠ .fsetcmd imm) → t.frame.fcmd = s.frame.fcmd ∧ t.frame.fcmdv = s.frame.fcmdv) ∧
    ((∀ imm, i ≠ .fsetef imm) → t.frame.fef = s.frame.fef) ∧
    (i ≠ .fdata → t.frame.fdone = s.frame.fdone ∧ t.frame.fplain = s.frame.fplain)

/-- A draw of SEED_DRAW is spent by LENCR, by a FINIT that succeeds for a legacy-V2 protocolType, and by no
other command (20_memory.md R57; 60_exceptions.md R148). The count is the model's own field (LOG 3); that the
protocolType is the new one, descriptor byte 0 of a 7-byte input (43_frame.md R130, R131), and not the FPT held
before, is the model's reading (LOG 19). -/
def Obligations.DrawsSpentByLencrAndFinitOnly : Prop :=
  ∀ (i : Instr) (s t : State), exec i s = .next t →
    t.draws = s.draws +
      (if i = .lencr ∨
          (i = .finit ∧ s.ilen = 7 ∧ drawsEncryptFlag Config.params (inByte s 0) = true) then 1 else 0)

/-- A byte of IBUF at ILEN or above has no effect on any command (10_state.md R20; 20_memory.md R49): with
other bytes there, the command does the same to everything but IBUF, and leaves the same input. -/
def Obligations.BytesAboveIlenHaveNoEffect : Prop :=
  ∀ (i : Instr) (s t : State) (m : Memory), (∀ a < s.ilen, m.read a = s.ibuf.read a) →
    exec i s = .next t →
      ∃ t', exec i { s with ibuf := m } = .next t' ∧ { t' with ibuf := t.ibuf } = t ∧
        input t' = input t

/-- A run takes the host's actions one at a time in the order issued (20_memory.md R59): the steps of the
machine with those actions pending go through the same states, and end with the rest still pending. -/
def Obligations.StepsTakeActionsInIssueOrder : Prop :=
  ∀ (actions rest : List HostAction) (s t : State) (codes : List (BitVec 8)),
    s.port = rest → run actions s = some (t, codes) →
      Host.Core.run Sys2Proof.core actions.length { s with port := actions ++ rest } = .next t

/-! ## Control commands (44_control.md) -/

/-- NOP writes STATUS = OK and nothing else (44_control.md R141). -/
def Obligations.NopCompletes : Prop :=
  ZeroRow 0x00#8 .nop ∧
  ∀ s : State, ∃ t, exec .nop s = .next t ∧
    EndsOk s t ∧ KeepsAllButFrame s t ∧ t.frame = s.frame ∧ t.draws = s.draws

/-- MOVOI makes the output the input, IBUF above it being kept; an output longer than IBUF_CAP is
INVALID_LENGTH (44_control.md R142). -/
def Obligations.MovoiCompletes : Prop :=
  ZeroRow 0x03#8 .movoi ∧
  ∀ s : State,
    (s.olen ≤ 256 →
      ∃ t, exec .movoi s = .next t ∧ EndsOk s t ∧ input t = output s ∧
        t.ilen = s.olen ∧ (∀ a, s.olen ≤ a → t.ibuf.read a = s.ibuf.read a) ∧
        KeepsOutput s t ∧ KeepsKey s t ∧ t.cfg = s.cfg ∧ KeepsHostSide s t ∧
        t.frame = s.frame ∧ t.draws = s.draws) ∧
    (256 < s.olen → ∃ t, exec .movoi s = .next t ∧ ErrorOnly 2 s t)

/-- CFGW writes CFG; an image with a reserved bit set is ILLEGAL_COMMAND and leaves CFG
(44_control.md R143). -/
def Obligations.CfgwCompletes : Prop :=
  ImmRow 0x40#8 .cfgw ∧
  ∀ (imm : Byte) (s : State),
    (imm = 0x00#8 ∨ imm = 0x01#8 →
      ∃ t, exec (.cfgw imm) s = .next t ∧ EndsOk s t ∧ t.cfg = imm ∧
        KeepsInput s t ∧ KeepsOutput s t ∧ KeepsKey s t ∧ KeepsHostSide s t ∧
        t.frame = s.frame ∧ t.draws = s.draws) ∧
    (2 ≤ imm.toNat → ∃ t, exec (.cfgw imm) s = .next t ∧ ErrorOnly 8 s t)

/-! ## CRC8 (40_crc8.md) -/

/-- The literal table equals its generator at all 256 indices (40_crc8.md R88). -/
def Obligations.CrcTableEqualsItsGenerator : Prop := ∀ x : Byte, crc8Table x = crc8Entry x

/-- CRC8 outputs the CRC8 of the input, CRCLUT the table's entry, and neither writes anything else; a string
with its own CRC appended has CRC 0 (40_crc8.md R90, R91). -/
def Obligations.Crc8AndCrclutComplete : Prop :=
  ZeroRow 0x01#8 .crc8 ∧ ImmRow 0x02#8 .crclut ∧
  (∀ (s : State) (imm : Byte),
    (∃ t, exec .crc8 s = .next t ∧ OkWithOutput [crc8 (input s)] s t) ∧
    (∃ t, exec (.crclut imm) s = .next t ∧ OkWithOutput [crc8Table imm] s t)) ∧
  ∀ p : List Byte, crc8 (p ++ [crc8 p]) = 0x00#8

/-- Two inputs that differ in one byte have different CRCs; so does every single-bit flip
(40_crc8.md R92). -/
def Obligations.CrcDetectsAOneByteChange : Prop :=
  ∀ (p q : List Byte) (a b : Byte), a ≠ b → crc8 (p ++ a :: q) ≠ crc8 (p ++ b :: q)

/-! ## The legacy cipher (41_legacy_cipher.md) -/

/-- LENC and LDEC output the input XORed with the key byte and crcSeed, and write nothing else, for every
key byte (41_legacy_cipher.md R94, R95, R97). ILEN is within IBUF_CAP (10_state.md R39). -/
def Obligations.LencAndLdecComplete : Prop :=
  ImmRow 0x10#8 .lenc ∧ ImmRow 0x12#8 .ldec ∧
  ∀ (k : Byte) (s : State), s.ilen ≤ 256 →
    (∃ t, exec (.lenc k) s = .next t ∧ OkWithOutput (xorWith k (input s)) s t) ∧
    (∃ t, exec (.ldec k) s = .next t ∧ OkWithOutput (xorWith k (input s)) s t)

/-- LENCR encodes with some seed in [1,127], appends the seed, and spends one draw
(41_legacy_cipher.md R96; 00_scope.md R10). ILEN is within IBUF_CAP (10_state.md R39). -/
def Obligations.LencrCompletes : Prop :=
  ZeroRow 0x11#8 .lencr ∧
  ∀ s : State, s.ilen ≤ 256 → ∃ (t : State) (seed : Byte),
    exec .lencr s = .next t ∧ 1 ≤ seed.toNat ∧ seed.toNat ≤ 127 ∧ EndsOk s t ∧
      Outputs (xorWith seed (input s) ++ [seed]) s t ∧ KeepsAllButOutputAndFrame s t ∧
      t.frame = s.frame ∧ t.draws = s.draws + 1

/-- LDECS decodes all but the last input byte with the last as the seed, whatever its value; an empty input
is INVALID_LENGTH (41_legacy_cipher.md R98). ILEN is within IBUF_CAP (10_state.md R39). -/
def Obligations.LdecsCompletes : Prop :=
  ZeroRow 0x13#8 .ldecs ∧
  ∀ s : State,
    (1 ≤ s.ilen → s.ilen ≤ 256 →
      ∃ t, exec .ldecs s = .next t ∧
        OkWithOutput (xorWith (inByte s (s.ilen - 1)) ((input s).take (s.ilen - 1))) s t) ∧
    (s.ilen = 0 → ∃ t, exec .ldecs s = .next t ∧ ErrorOnly 2 s t)

/-- The cipher is its own inverse for every byte string and all 256 keys; LENC then LDEC with the same key
gives the input back, and so do LENCR then LDECS whatever seed was drawn, for an input of at most 255 bytes,
which leaves room for the seed in IBUF (41_legacy_cipher.md R99; 44_control.md R142). After LENCR of 256 bytes
the MOVOI is INVALID_LENGTH. -/
def Obligations.LegacyRoundTripsReturnTheInput : Prop :=
  (∀ (p : List Byte) (k : Byte), legacyXor (legacyXor p k) k = p) ∧
  ∀ (s : State) (k : Byte),
    (s.ilen ≤ 256 →
      ∃ (t : State) (codes : List (BitVec 8)),
        run [.issue (encode (.lenc k)), .issue (encode .movoi), .issue (encode (.ldec k))] s =
          some (t, codes) ∧ codes = [0x00#8, 0x00#8, 0x00#8] ∧ output t = input s) ∧
    (s.ilen ≤ 255 →
      ∃ (t : State) (codes : List (BitVec 8)),
        run [.issue (encode .lencr), .issue (encode .movoi), .issue (encode .ldecs)] s =
          some (t, codes) ∧ codes = [0x00#8, 0x00#8, 0x00#8] ∧ output t = input s) ∧
    (s.ilen = 256 →
      ∃ t : State,
        run [.issue (encode .lencr), .issue (encode .movoi)] s = some (t, [0x00#8, 0x02#8]))

/-! ## AES-128-CBC (42_aes.md) -/

/-- KLOAD takes the 16 input bytes as KEY, INVALID_KEY for any other length; KCLR clears the key; neither
writes anything else, the FDATA cache included (42_aes.md R115, R116). -/
def Obligations.KloadAndKclrComplete : Prop :=
  ZeroRow 0x20#8 .kload ∧ ZeroRow 0x21#8 .kclr ∧
  ∀ s : State,
    (s.ilen = 16 →
      ∃ t, exec .kload s = .next t ∧ EndsOk s t ∧ Block.toBytes t.key = input s ∧
        t.kvalid = true ∧ KeepsInput s t ∧ KeepsOutput s t ∧ t.cfg = s.cfg ∧
        KeepsHostSide s t ∧ t.frame = s.frame ∧ t.draws = s.draws) ∧
    (s.ilen ≠ 16 → ∃ t, exec .kload s = .next t ∧ ErrorOnly 4 s t) ∧
    (∃ t, exec .kclr s = .next t ∧ EndsOk s t ∧
      Block.toBytes t.key = List.replicate 16 0x00#8 ∧ t.kvalid = false ∧
      KeepsInput s t ∧ KeepsOutput s t ∧ t.cfg = s.cfg ∧ KeepsHostSide s t ∧
      t.frame = s.frame ∧ t.draws = s.draws)

/-- AESENC outputs the CBC encryption of the input under KEY, of `16 * (ILEN div 16 + 1)` bytes, for every
input length up to IBUF_CAP; with no key it is INVALID_KEY (42_aes.md R117). -/
def Obligations.AesencCompletes : Prop :=
  ZeroRow 0x22#8 .aesenc ∧
  ∀ s : State,
    (s.kvalid = true → s.ilen ≤ 256 →
      ∃ t, exec .aesenc s = .next t ∧ OkWithOutput (cbcEnc (input s) s.key) s t ∧
        t.olen = 16 * (s.ilen / 16 + 1)) ∧
    (s.kvalid = false → ∃ t, exec .aesenc s = .next t ∧ ErrorOnly 4 s t)

/-- AESDEC outputs the CBC decryption of the input under KEY; INVALID_KEY with no key, then DECRYPTION when
ILEN is 0 or not a multiple of 16 or the padding is invalid (42_aes.md R118). ILEN is within IBUF_CAP
(10_state.md R39). -/
def Obligations.AesdecCompletes : Prop :=
  ZeroRow 0x23#8 .aesdec ∧
  ∀ s : State,
    (∀ p, s.kvalid = true → s.ilen ≤ 256 → cbcDec (input s) s.key = some p →
      ∃ t, exec .aesdec s = .next t ∧ OkWithOutput p s t ∧
        ∃ q, 1 ≤ q ∧ q ≤ 16 ∧ t.olen + q = s.ilen) ∧
    (s.kvalid = true → (s.ilen = 0 ∨ s.ilen % 16 ≠ 0) →
      ∃ t, exec .aesdec s = .next t ∧ ErrorOnly 5 s t) ∧
    (s.kvalid = true → cbcDec (input s) s.key = none →
      ∃ t, exec .aesdec s = .next t ∧ ErrorOnly 5 s t) ∧
    (s.kvalid = false → ∃ t, exec .aesdec s = .next t ∧ ErrorOnly 4 s t)

/-- `INV_SBOX[SBOX[x]] = x` for every byte (42_aes.md R104). -/
def Obligations.InverseSboxInvertsSbox : Prop := ∀ x : Byte, invSbox (sbox x) = x

/-- Decryption of one block is the inverse of encryption for every key (42_aes.md R110). -/
def Obligations.AesDecInvertsAesEnc : Prop := ∀ b k : Block, aesDec (aesEnc b k) k = b

/-- CBC with IV = key: the ciphertext has `16 * (n div 16 + 1)` bytes, each of its blocks is the encryption
of the padded plaintext's block XORed with the ciphertext block before it, and the first with the key itself
(42_aes.md R113, R120; 30_encoding.md R74). -/
def Obligations.CbcChainsFromTheKey : Prop :=
  ∀ (p : List Byte) (k : Block),
    (cbcEnc p k).length = 16 * (p.length / 16 + 1) ∧
    ∀ j, j < p.length / 16 + 1 →
      Block.ofBytes ((cbcEnc p k).drop (16 * j)) =
        aesEnc (Block.xor (Block.ofBytes ((pad p).drop (16 * j)))
          (if j = 0 then k else Block.ofBytes ((cbcEnc p k).drop (16 * (j - 1))))) k

/-- Unpadding accepts exactly the strings that end in q copies of q for some q from 1 to 16, and removes
those (42_aes.md R112). -/
def Obligations.UnpadAcceptsExactlyPaddedStrings : Prop :=
  ∀ d p : List Byte, 16 ≤ d.length →
    (unpad d = some p ↔
      ∃ q, 1 ≤ q ∧ q ≤ 16 ∧ d = p ++ List.replicate q (BitVec.ofNat 8 q))

/-- Decryption inverts encryption for every key and every plaintext of any length (42_aes.md R114). -/
def Obligations.CbcDecInvertsCbcEnc : Prop :=
  ∀ (p : List Byte) (k : Block), cbcDec (cbcEnc p k) k = some p

/-- KLOAD, LOAD P, AESENC, MOVOI, AESDEC end with OBUF = P and every STATUS OK, for every plaintext of at
most 255 bytes; for one of 256 bytes the MOVOI is INVALID_LENGTH (42_aes.md R119). -/
def Obligations.AesCommandsRoundTrip : Prop :=
  ∀ (s : State) (keyBytes plain : List Byte), keyBytes.length = 16 →
    (plain.length ≤ 255 →
      ∃ (t : State) (codes : List (BitVec 8)),
        run [.load keyBytes, .issue (encode .kload), .load plain, .issue (encode .aesenc),
          .issue (encode .movoi), .issue (encode .aesdec)] s = some (t, codes) ∧
        codes = List.replicate 4 0x00#8 ∧ output t = plain) ∧
    (plain.length = 256 →
      ∃ t : State,
        run [.load keyBytes, .issue (encode .kload), .load plain, .issue (encode .aesenc),
          .issue (encode .movoi)] s = some (t, [0x00#8, 0x00#8, 0x02#8]))

/-! ## The frame envelope (43_frame.md) -/

/-- Every protocolType is exactly one of modern and legacy, and FLEG says which after an FPARSE (from frame
byte 2) and after a FINIT (from descriptor byte 0) that ends OK (43_frame.md R123). -/
def Obligations.EveryProtocolTypeHasOneDialect : Prop :=
  (∀ pt : Byte, isModern pt = !isLegacy pt ∧
    (isLegacy pt = true ↔ 1 ≤ pt.toNat ∧ pt.toNat ≤ 4)) ∧
  ∀ (s t : State), t.status = 0x00#8 →
    (exec .fparse s = .next t → t.frame.fleg = isLegacy (inByte s 2)) ∧
    (exec .finit s = .next t → t.frame.fleg = isLegacy (inByte s 0))

/-- FPARSE of a modern frame: every frame register from its offset, big-endian where 16 bits wide, the CRC
computed over all bytes but the last and compared with it; nothing else is written but STATUS
(43_frame.md R124, R125; 30_encoding.md R69). -/
def Obligations.FparseOfAModernFrameCompletes : Prop :=
  ∀ s : State,
    (inByte s 2 = 0x00#8 ∨ 5 ≤ (inByte s 2).toNat) → 13 ≤ s.ilen →
    (inByte s 11).toNat ≤ 127 → 13 + (inByte s 11).toNat ≤ s.ilen →
      ∃ t, exec .fparse s = .next t ∧ EndsOk s t ∧ KeepsAllButFrame s t ∧ t.draws = s.draws ∧
        t.frame.fgid.toNat = (inByte s 5).toNat * 256 + (inByte s 6).toNat ∧
        t.frame.foid.toNat = (inByte s 7).toNat * 256 + (inByte s 8).toNat ∧
        t.frame =
          { fstate := .parsed, fleg := false, fhdr := (inByte s 0, inByte s 1)
            fpt := inByte s 2, fpv := inByte s 3, fscene := inByte s 4
            fgid := t.frame.fgid, foid := t.frame.foid
            fcmd := inByte s 9, fcmdv := true, fef := inByte s 10, fplen := inByte s 11
            fpay := s.ibuf.slice 12 (inByte s 11).toNat
            fcrcrx := inByte s (s.ilen - 1)
            fcrccalc := crc8 (s.ibuf.slice 0 (s.ilen - 1))
            fcrcok := crc8 (s.ibuf.slice 0 (s.ilen - 1)) == inByte s (s.ilen - 1)
            flvar := Config.lockVariant (inByte s 2) (inByte s 3) (inByte s 4)
            fdone := false, fplain := [] }

/-- FPARSE of a legacy frame: the registers from the legacy offsets, FPV, FSCENE, FGID and FOID being 0
(43_frame.md R124, R125; 30_encoding.md R70; 10_state.md R29, R30). -/
def Obligations.FparseOfALegacyFrameCompletes : Prop :=
  ∀ s : State,
    1 ≤ (inByte s 2).toNat → (inByte s 2).toNat ≤ 4 → 7 ≤ s.ilen →
    (inByte s 5).toNat ≤ 127 → 7 + (inByte s 5).toNat ≤ s.ilen →
      ∃ t, exec .fparse s = .next t ∧ EndsOk s t ∧ KeepsAllButFrame s t ∧ t.draws = s.draws ∧
        t.frame =
          { fstate := .parsed, fleg := true, fhdr := (inByte s 0, inByte s 1)
            fpt := inByte s 2, fpv := 0x00#8, fscene := 0x00#8
            fgid := 0x0000#16, foid := 0x0000#16
            fcmd := inByte s 3, fcmdv := true, fef := inByte s 4, fplen := inByte s 5
            fpay := s.ibuf.slice 6 (inByte s 5).toNat
            fcrcrx := inByte s (s.ilen - 1)
            fcrccalc := crc8 (s.ibuf.slice 0 (s.ilen - 1))
            fcrcok := crc8 (s.ibuf.slice 0 (s.ilen - 1)) == inByte s (s.ilen - 1)
            flvar := Config.lockVariant (inByte s 2) 0x00#8 0x00#8
            fdone := false, fplain := [] }

/-- When FPARSE ends in an error, which one, and that the held frame is dropped (43_frame.md R124, R126;
60_exceptions.md R149). The clauses exclude each other. -/
def Obligations.FparseErrorsDropTheFrame : Prop :=
  ZeroRow 0x30#8 .fparse ∧
  ∀ s : State,
    (s.ilen ≤ 6 → ∃ t, exec .fparse s = .next t ∧ ErrorDroppingFrame 1 s t) ∧
    ((inByte s 2 = 0x00#8 ∨ 5 ≤ (inByte s 2).toNat) →
      (7 ≤ s.ilen → s.ilen ≤ 12 →
        ∃ t, exec .fparse s = .next t ∧ ErrorDroppingFrame 1 s t) ∧
      (13 ≤ s.ilen →
        128 ≤ (inByte s 11).toNat ∨ s.ilen < 13 + (inByte s 11).toNat →
        ∃ t, exec .fparse s = .next t ∧ ErrorDroppingFrame 2 s t)) ∧
    (1 ≤ (inByte s 2).toNat → (inByte s 2).toNat ≤ 4 → 7 ≤ s.ilen →
      128 ≤ (inByte s 5).toNat ∨ s.ilen < 7 + (inByte s 5).toNat →
      ∃ t, exec .fparse s = .next t ∧ ErrorDroppingFrame 2 s t)

/-- The words of FDATA's success: the output and FPLAIN are the plaintext, FDONE is set, and nothing else
is written. -/
def Sys2Proof.Claims.DecodesTo (p : List Byte) (s t : State) : Prop :=
  EndsOk s t ∧ Outputs p s t ∧ KeepsAllButOutputAndFrame s t ∧
    t.frame = { s.frame with fplain := p, fdone := true } ∧ t.draws = s.draws

/-- FDATA completes on a PARSED frame: a cached payload is returned with nothing checked; otherwise, with
the CRC accepted, a legacy payload goes through the legacy cipher with key FEF, an empty modern payload
gives nothing, and any other modern payload is decrypted under KEY (43_frame.md R127, R128, R129). -/
def Obligations.FdataCompletes : Prop :=
  ∀ s : State, FrameOk s.frame → s.frame.fstate = .parsed →
    (s.frame.fdone = true → ∃ t, exec .fdata s = .next t ∧ OkWithOutput s.frame.fplain s t) ∧
    (s.frame.fdone = false → (s.cfg.getLsbD 0 = true ∨ s.frame.fcrcok = true) →
      (s.frame.fleg = true →
        ∃ t, exec .fdata s = .next t ∧ DecodesTo (xorWith s.frame.fef s.frame.fpay) s t) ∧
      (s.frame.fleg = false → s.frame.fplen = 0x00#8 →
        ∃ t, exec .fdata s = .next t ∧ DecodesTo [] s t) ∧
      (∀ p, s.frame.fleg = false → s.frame.fplen ≠ 0x00#8 → s.kvalid = true →
        cbcDec s.frame.fpay s.key = some p →
        ∃ t, exec .fdata s = .next t ∧ DecodesTo p s t))

/-- When FDATA ends in an error, and which one, in the order of the checks: no parsed frame; CRC bad and not
ignored, before any decryption; no key for a modern non-empty payload; decryption
(43_frame.md R128; 60_exceptions.md R157). -/
def Obligations.FdataErrors : Prop :=
  ZeroRow 0x31#8 .fdata ∧
  ∀ s : State,
    (s.frame.fstate ≠ .parsed → ∃ t, exec .fdata s = .next t ∧ ErrorOnly 6 s t) ∧
    (s.frame.fstate = .parsed → s.frame.fdone = false →
      (s.cfg.getLsbD 0 = false → s.frame.fcrcok = false →
        ∃ t, exec .fdata s = .next t ∧ ErrorOnly 3 s t) ∧
      ((s.cfg.getLsbD 0 = true ∨ s.frame.fcrcok = true) →
        s.frame.fleg = false → s.frame.fplen ≠ 0x00#8 →
        (s.kvalid = false → ∃ t, exec .fdata s = .next t ∧ ErrorOnly 6 s t) ∧
        (s.kvalid = true → cbcDec s.frame.fpay s.key = none →
          ∃ t, exec .fdata s = .next t ∧ ErrorOnly 5 s t)))

/-- Once FDATA has cached a payload, FDATA returns it after any host actions but FPARSE, FINIT and RESET,
whatever became of KEY, KVALID, CFG and FEF (43_frame.md R129; 70_reset_and_hazards.md R172). -/
def Obligations.CachedPayloadSurvives : Prop :=
  ∀ (actions : List HostAction) (s t : State) (codes : List (BitVec 8)),
    FrameOk s.frame → s.frame.fstate = .parsed → s.frame.fdone = true →
    (∀ a ∈ actions, a ≠ .reset ∧ a ≠ .issue (encode .fparse) ∧ a ≠ .issue (encode .finit)) →
    run actions s = some (t, codes) →
      ∃ u, exec .fdata t = .next u ∧ u.status = 0x00#8 ∧ output u = s.frame.fplain

/-- FINIT makes a shell from the 7-byte descriptor: every frame register, the encryptFlag being some seed in
[1,127] for a legacy-V2 protocolType and 0xAA for every other, so for every modern one; any other length is
INVALID_LENGTH (43_frame.md R130, R131; 30_encoding.md R72). -/
def Obligations.FinitCompletes : Prop :=
  ZeroRow 0x32#8 .finit ∧
  ∀ s : State,
    (s.ilen = 7 →
      ∃ (t : State) (ef : Byte), exec .finit s = .next t ∧ EndsOk s t ∧ KeepsAllButFrame s t ∧
        t.frame.fgid.toNat = (inByte s 3).toNat * 256 + (inByte s 4).toNat ∧
        t.frame.foid.toNat = (inByte s 5).toNat * 256 + (inByte s 6).toNat ∧
        t.frame =
          { fstate := .shell
            fleg := decide (1 ≤ (inByte s 0).toNat ∧ (inByte s 0).toNat ≤ 4)
            fhdr := (0x7F#8, 0x5A#8)
            fpt := inByte s 0, fpv := inByte s 1, fscene := inByte s 2
            fgid := t.frame.fgid, foid := t.frame.foid
            fcmd := 0x00#8, fcmdv := false, fef := ef, fplen := 0x00#8, fpay := []
            fcrcrx := 0x00#8, fcrccalc := 0x00#8, fcrcok := false
            flvar := Config.lockVariant (inByte s 0) (inByte s 1) (inByte s 2)
            fdone := false, fplain := [] } ∧
        (if drawsEncryptFlag Config.params (inByte s 0) then
          1 ≤ ef.toNat ∧ ef.toNat ≤ 127 ∧ t.draws = s.draws + 1
        else ef = 0xAA#8 ∧ t.draws = s.draws) ∧
        ((inByte s 0 = 0x00#8 ∨ 5 ≤ (inByte s 0).toNat) → ef = 0xAA#8)) ∧
    (s.ilen ≠ 7 → ∃ t, exec .finit s = .next t ∧ ErrorOnly 2 s t)

/-- FSETCMD sets FCMD and FCMDV, FSETEF sets FEF, on any held frame and with any byte; with no frame held
both are COMMAND_NOT_READY (43_frame.md R132, R133). -/
def Obligations.FsetcmdAndFsetefComplete : Prop :=
  ImmRow 0x33#8 .fsetcmd ∧ ImmRow 0x34#8 .fsetef ∧
  ∀ (imm : Byte) (s : State),
    (s.frame.fstate ≠ .empty →
      (∃ t, exec (.fsetcmd imm) s = .next t ∧ EndsOk s t ∧ KeepsAllButFrame s t ∧
        t.frame = { s.frame with fcmd := imm, fcmdv := true } ∧ t.draws = s.draws) ∧
      (∃ t, exec (.fsetef imm) s = .next t ∧ EndsOk s t ∧ KeepsAllButFrame s t ∧
        t.frame = { s.frame with fef := imm } ∧ t.draws = s.draws)) ∧
    (s.frame.fstate = .empty →
      (∃ t, exec (.fsetcmd imm) s = .next t ∧ ErrorOnly 6 s t) ∧
      (∃ t, exec (.fsetef imm) s = .next t ∧ ErrorOnly 6 s t))

/-- The payload FBUILD puts in a modern frame: nothing for an empty plaintext, else its encryption
(43_frame.md R135). -/
def Sys2Proof.Claims.modernPayload (s : State) : List Byte :=
  if s.ilen = 0 then [] else cbcEnc (input s) s.key

/-- The modern frame FBUILD serialises, without its CRC byte (43_frame.md R134; 30_encoding.md R69). -/
def Sys2Proof.Claims.modernBody (s : State) : List Byte :=
  [0x7F#8, 0x5A#8, s.frame.fpt, s.frame.fpv, s.frame.fscene,
    s.frame.fgid.extractLsb' 8 8, s.frame.fgid.extractLsb' 0 8,
    s.frame.foid.extractLsb' 8 8, s.frame.foid.extractLsb' 0 8,
    s.frame.fcmd, s.frame.fef, BitVec.ofNat 8 (modernPayload s).length] ++ modernPayload s

/-- The legacy frame FBUILD serialises, without its CRC byte (43_frame.md R134, R136; 30_encoding.md R70). -/
def Sys2Proof.Claims.legacyBody (s : State) : List Byte :=
  [0x7F#8, 0x5A#8, s.frame.fpt, s.frame.fcmd, s.frame.fef, BitVec.ofNat 8 s.ilen] ++
    xorWith s.frame.fef (input s)

/-- FBUILD outputs the frame with its CRC appended and writes no frame register: a modern frame for a
plaintext of at most 111 bytes, with a key unless it is empty; a legacy frame for at most 127
(43_frame.md R134, R135, R136). -/
def Obligations.FbuildCompletes : Prop :=
  ∀ s : State, s.frame.fstate ≠ .empty → s.frame.fcmdv = true →
    (s.frame.fleg = false → (s.ilen = 0 ∨ s.kvalid = true) → s.ilen ≤ 111 →
      ∃ t, exec .fbuild s = .next t ∧ OkWithOutput (modernBody s ++ [crc8 (modernBody s)]) s t) ∧
    (s.frame.fleg = true → s.ilen ≤ 127 →
      ∃ t, exec .fbuild s = .next t ∧ OkWithOutput (legacyBody s ++ [crc8 (legacyBody s)]) s t)

/-- When FBUILD ends in an error, and which one: no frame held or no commandType; a modern non-empty payload
and no key; a payload too long for its length byte (43_frame.md R134; 60_exceptions.md R157). -/
def Obligations.FbuildErrors : Prop :=
  ZeroRow 0x35#8 .fbuild ∧
  ∀ s : State,
    (s.frame.fstate = .empty ∨ s.frame.fcmdv = false →
      ∃ t, exec .fbuild s = .next t ∧ ErrorOnly 6 s t) ∧
    (s.frame.fstate ≠ .empty → s.frame.fcmdv = true →
      (s.frame.fleg = false → 1 ≤ s.ilen → s.kvalid = false →
        ∃ t, exec .fbuild s = .next t ∧ ErrorOnly 7 s t) ∧
      (s.frame.fleg = false → 112 ≤ s.ilen → s.kvalid = true →
        ∃ t, exec .fbuild s = .next t ∧ ErrorOnly 2 s t) ∧
      (s.frame.fleg = true → 128 ≤ s.ilen →
        ∃ t, exec .fbuild s = .next t ∧ ErrorOnly 2 s t))

/-- A built frame is `13 + L` bytes in the modern dialect and `7 + L` in the legacy one, L being its
payloadLength byte, which is at most 112 or 127; the CRC8 of the whole frame is 0 (30_encoding.md R69 to R71;
40_crc8.md R90). -/
def Obligations.BuiltFramesFitTheirLengthByte : Prop :=
  ∀ s t : State, exec .fbuild s = .next t → t.status = 0x00#8 →
    crc8 (output t) = 0x00#8 ∧
    (s.frame.fleg = false →
      t.olen = 13 + (t.obuf.read 11).toNat ∧ (t.obuf.read 11).toNat ≤ 112) ∧
    (s.frame.fleg = true →
      t.olen = 7 + (t.obuf.read 5).toNat ∧ (t.obuf.read 5).toNat ≤ 127)

/-- The envelope round trip of 43_frame.md R137, from every state: for every commandType, key, descriptor
and plaintext that fits its dialect, the sequence ends with FCMD = T, OBUF = P and every STATUS OK. -/
def Obligations.EnvelopeRoundTrip : Prop :=
  ∀ (s : State) (keyBytes descriptor plain : List Byte) (T : Byte),
    keyBytes.length = 16 → descriptor.length = 7 →
    (if isLegacy (byteAt descriptor 0) then plain.length ≤ 127 else plain.length ≤ 111) →
      ∃ (t : State) (codes : List (BitVec 8)),
        run [.load keyBytes, .issue (encode .kload), .load descriptor, .issue (encode .finit),
          .issue (encode (.fsetcmd T)), .load plain, .issue (encode .fbuild),
          .issue (encode .movoi), .issue (encode .fparse), .issue (encode .fdata)] s =
            some (t, codes) ∧
        codes = List.replicate 7 0x00#8 ∧ t.frame.fcmd = T ∧ output t = plain

/-! ## The assembler (30_encoding.md R75 to R77) -/

/-- A line of text with a command's mnemonic, and its immediate written `0xNN` or as a decimal for an "imm"
command, assembles to the command's word; an operand on any other command, or none on an "imm" command, does
not assemble; a comment changes nothing (30_encoding.md R75). The same from a parsed line; and whatever
assembles, from text or from a parsed line, holds legal words only. The characters between the words are the
model's choice (LOG 22). -/
def Obligations.AssembledLinesAreLegalWords : Prop :=
  (∀ i : Instr, (mnemonicText i, i.opcode) ∈ mnemonics ∧
    (takesImmediate i.opcode = false →
      assembleLine (mnemonicText i).toList = some [.issue (encode i)] ∧
      ∀ b : Byte, assembleLine ((mnemonicText i).toList ++ ' ' :: hexText b) = none) ∧
    (takesImmediate i.opcode = true →
      assembleLine ((mnemonicText i).toList ++ ' ' :: hexText i.immediate) =
        some [.issue (encode i)] ∧
      assembleLine ((mnemonicText i).toList ++ ' ' :: decimalText i.immediate) =
        some [.issue (encode i)] ∧
      assembleLine (mnemonicText i).toList = none)) ∧
  (∀ line comment : List Char, ';' ∉ line →
    assembleLine (line ++ ';' :: comment) = assembleLine line) ∧
  (∀ (line : List Char) (actions : List HostAction) (cw : CommandWord),
    assembleLine line = some actions → .issue cw ∈ actions → wellFormedWord cw = true) ∧
  (∀ i : Instr,
    assembleSource (.command i.opcode
      (if takesImmediate i.opcode then some i.immediate.toNat else none)) =
        some [.issue (encode i)]) ∧
  (∀ (l : SourceLine) (actions : List HostAction) (cw : CommandWord),
    assembleSource l = some actions → .issue cw ∈ actions → wellFormedWord cw = true)

/-- Each pseudo-instruction expands as 30_encoding.md R77 shows. -/
def Obligations.PseudoInstructionsExpand : Prop :=
  (∀ keyBytes : List Byte, keyBytes.length = 16 →
    assembleSource (.setkey keyBytes) = some [.load keyBytes, .issue 0x00000020#32]) ∧
  (∀ pt pv scene gidHi gidLo oidHi oidLo : Byte,
    assembleSource (.desc pt.toNat pv.toNat scene.toNat (gidHi.toNat * 256 + gidLo.toNat)
      (oidHi.toNat * 256 + oidLo.toNat)) =
        some [.load [pt, pv, scene, gidHi, gidLo, oidHi, oidLo], .issue 0x00000032#32]) ∧
  assembleSource .strict = some [.issue 0x00000040#32] ∧
  assembleSource .nocrc = some [.issue 0x00000140#32] ∧
  (∀ bytes : List Byte, bytes.length ≤ 256 →
    assembleSource (.parse bytes) = some [.load bytes, .issue 0x00000030#32])

/-! ## The arguments of the model (10_state.md R41) -/

/-- What is outside the state is an argument of the model (10_state.md R41): issuing a word is the block's step
at the parameters `Config.params` and at the next draw, and gives its STATUS code; a run is the block's run at
those parameters, at the draws `Config.seedDraw` in their order and at the host's sequence of actions; and for
all parameters the draw matters to LENCR and FINIT only. That the draws are counted in State and the sequence
is held in State for the step is the model's choice (LOG 1, 3). -/
def Obligations.StepIsTheBlocksStepAtItsArguments : Prop :=
  (∀ (cw : CommandWord) (s t : State),
    issueWord cw s = .next t ↔
      blockStep Config.params (Config.seedDraw s.draws) cw s = .next (t, t.status)) ∧
  (∀ (actions : List HostAction) (s : State),
    run actions s = blockRun Config.params Config.seedDraw actions s) ∧
  (∀ (c : Params) (d d' : Fin 127) (cw : CommandWord) (s : State),
    decode cw ≠ .ok .lencr → decode cw ≠ .ok .finit →
      blockStep c d cw s = blockStep c d' cw s)

/-- The block's step keeps the invariants for all parameters and every draw, and the code it gives is the
STATUS it leaves (10_state.md R39, R41). -/
def Obligations.BlockStepKeepsTheInvariants : Prop :=
  ∀ (c : Params) (draw : Fin 127) (cw : CommandWord) (s t : State) (code : BitVec 8),
    Invariants c s → blockStep c draw cw s = .next (t, code) → Invariants c t ∧ code = t.status
end

