-- ==== Sys2Proof/Laws/Memory.lean ====
section
/-!
SUPPORT. The laws of the byte buffers: what a read gives after a write or a store, and that every operation
keeps the canonical form and the address space. The read laws need no premise on the buffer.
-/
namespace Sys2Proof.Machine

/-! ## Reading after a write -/

theorem Memory.read_insert (m : Memory) (a : Nat) (v : Byte) (i : Nat)
    (h : ∀ c ∈ m, c.1 ≠ a) :
    (Memory.insert m a v).read i = if i = a then v else m.read i := by
  induction m with
  | nil => by_cases hi : a = i <;> simp [Memory.insert, Memory.read, hi, eq_comm]
  | cons c rest ih =>
    obtain ⟨k, b⟩ := c
    have hk : k ≠ a := h _ List.mem_cons_self
    have ih := ih fun c hc => h c (List.mem_cons_of_mem _ hc)
    unfold Memory.insert
    split
    · simp only [Memory.read, ih]
      by_cases hki : k = i
      · subst hki
        simp [hk]
      · simp [hki]
    · by_cases hi : a = i <;> simp [Memory.read, hi, eq_comm]

theorem Memory.read_filter_ne (m : Memory) (a i : Nat) :
    Memory.read (m.filter fun c => c.1 ≠ a) i = if i = a then unlistedByte else m.read i := by
  induction m with
  | nil => simp [Memory.read]
  | cons c rest ih =>
    obtain ⟨k, b⟩ := c
    by_cases hk : k = a
    · subst hk
      simp only [ne_eq, not_true_eq_false, decide_false, Bool.false_eq_true, not_false_eq_true,
        List.filter_cons_of_neg, Memory.read] at ih ⊢
      rw [ih]
      by_cases hi : i = k
      · simp [hi]
      · simp [hi, Ne.symm hi]
    · simp only [ne_eq, hk, not_false_eq_true, decide_true, List.filter_cons_of_pos,
        Memory.read] at ih ⊢
      rw [ih]
      by_cases hki : k = i
      · subst hki
        simp [hk]
      · simp [hki]

/-- What a read gives after a write, at every index. -/
theorem Memory.read_write (m : Memory) (a : Nat) (v : Byte) (i : Nat) :
    (m.write a v).read i = if i = a then v else m.read i := by
  unfold Memory.write
  simp only
  split
  · rename_i hv
    rw [Memory.read_filter_ne, hv]
  · rw [Memory.read_insert _ _ _ _ (by simp), Memory.read_filter_ne]
    split <;> rfl

@[simp] theorem Memory.read_write_same (m : Memory) (a : Nat) (v : Byte) :
    (m.write a v).read a = v := by
  simp [Memory.read_write]

theorem Memory.read_write_other (m : Memory) (a : Nat) (v : Byte) (i : Nat) (h : i ≠ a) :
    (m.write a v).read i = m.read i := by
  simp [Memory.read_write, h]

/-! ## Reading after a store -/

/-- A store leaves every index below its first alone. -/
theorem Memory.read_store_below (m : Memory) (a : Nat) (s : List Byte) (i : Nat) (h : i < a) :
    (m.store a s).read i = m.read i := by
  induction s generalizing m a with
  | nil => rfl
  | cons b rest ih =>
    rw [Memory.store, ih _ _ (by omega), Memory.read_write_other _ _ _ _ (by omega)]

/-- A store leaves every index at or above its end alone. -/
theorem Memory.read_store_above (m : Memory) (a : Nat) (s : List Byte) (i : Nat)
    (h : a + s.length ≤ i) : (m.store a s).read i = m.read i := by
  induction s generalizing m a with
  | nil => rfl
  | cons b rest ih =>
    simp only [List.length_cons] at h
    rw [Memory.store, ih _ _ (by omega), Memory.read_write_other _ _ _ _ (by omega)]

/-- A store writes each byte of the string at its index. -/
theorem Memory.read_store_inside (m : Memory) (a : Nat) (s : List Byte) (j : Nat)
    (h : j < s.length) : (m.store a s).read (a + j) = s[j] := by
  induction s generalizing m a j with
  | nil => simp at h
  | cons b rest ih =>
    rw [Memory.store]
    cases j with
    | zero => simpa using Memory.read_store_below (m.write a b) (a + 1) rest a (by omega)
    | succ j =>
      simp only [List.length_cons] at h
      have := ih (m.write a b) (a + 1) j (by omega)
      rw [show a + (j + 1) = a + 1 + j by omega, this]
      rfl

@[simp] theorem Memory.length_slice (m : Memory) (a n : Nat) : (m.slice a n).length = n := by
  simp [Memory.slice]

theorem Memory.getElem_slice (m : Memory) (a n i : Nat) (h : i < (m.slice a n).length) :
    (m.slice a n)[i] = m.read (a + i) := by
  simp [Memory.slice]

/-- What a store wrote reads back. -/
@[simp] theorem Memory.slice_store (m : Memory) (a : Nat) (s : List Byte) :
    (m.store a s).slice a s.length = s := by
  apply List.ext_getElem (by simp)
  intro i h1 h2
  rw [Memory.getElem_slice, Memory.read_store_inside _ _ _ _ h2]

/-- A slice depends on the bytes it covers only. -/
theorem Memory.slice_congr (m m' : Memory) (a n : Nat)
    (h : ∀ i < n, m.read (a + i) = m'.read (a + i)) : m.slice a n = m'.slice a n := by
  apply List.ext_getElem (by simp)
  intro i h1 h2
  rw [Memory.getElem_slice, Memory.getElem_slice, h i (by simpa using h1)]

/-! ## The canonical form and the address space -/

theorem Memory.mem_insert (m : Memory) (a : Nat) (v : Byte) (c : Host.Cell) :
    c ∈ Memory.insert m a v ↔ c = (a, v) ∨ c ∈ m := by
  induction m with
  | nil => simp [Memory.insert]
  | cons d rest ih =>
    obtain ⟨k, b⟩ := d
    unfold Memory.insert
    split
    · simp only [List.mem_cons, ih]
      tauto
    · simp

theorem Memory.wf_filter (m : Memory) (p : Host.Cell → Bool) (h : Memory.wf m) :
    Memory.wf (m.filter p) := by
  refine ⟨h.1.sublist (List.filter_sublist.map _), ?_⟩
  intro c hc
  exact h.2 c (List.mem_of_mem_filter hc)

theorem Memory.wf_insert (m : Memory) (a : Nat) (v : Byte) (h : Memory.wf m) (hv : v ≠ unlistedByte)
    (hne : ∀ c ∈ m, c.1 ≠ a) : Memory.wf (Memory.insert m a v) := by
  constructor
  · obtain ⟨hp, -⟩ := h
    induction m with
    | nil => simp [Memory.insert]
    | cons d rest ih =>
      obtain ⟨k, b⟩ := d
      simp only [List.map_cons, List.pairwise_cons, List.mem_map, forall_exists_index, and_imp,
        forall_apply_eq_imp_iff₂] at hp
      have hne' : ∀ c ∈ rest, c.1 ≠ a := fun c hc => hne c (List.mem_cons_of_mem _ hc)
      have hka : k ≠ a := hne _ List.mem_cons_self
      unfold Memory.insert
      split
      · simp only [List.map_cons, List.pairwise_cons, List.mem_map, forall_exists_index, and_imp,
          forall_apply_eq_imp_iff₂, Memory.mem_insert]
        refine ⟨?_, ih hne' hp.2⟩
        rintro c (rfl | hc)
        · assumption
        · exact hp.1 c hc
      · have hak : a < k := by omega
        simp only [List.map_cons, List.pairwise_cons, List.mem_cons, List.mem_map]
        refine ⟨?_, ?_, hp.2⟩
        · rintro x (rfl | ⟨c, hc, rfl⟩)
          · exact hak
          · exact lt_trans hak (hp.1 c hc)
        · rintro x ⟨c, hc, rfl⟩
          exact hp.1 c hc
  · intro c hc
    rcases (Memory.mem_insert m a v c).1 hc with rfl | hc
    · exact hv
    · exact h.2 c hc

/-- A write keeps the canonical form. -/
theorem Memory.wf_write (m : Memory) (a : Nat) (v : Byte) (h : Memory.wf m) :
    Memory.wf (m.write a v) := by
  unfold Memory.write
  simp only
  split
  · exact Memory.wf_filter m _ h
  · rename_i hv
    exact Memory.wf_insert _ a v (Memory.wf_filter m _ h) hv (by simp)

/-- A store keeps the canonical form. -/
theorem Memory.wf_store (m : Memory) (a : Nat) (s : List Byte) (h : Memory.wf m) :
    Memory.wf (m.store a s) := by
  induction s generalizing m a with
  | nil => exact h
  | cons b rest ih => exact ih _ _ (Memory.wf_write m a b h)

/-- A write inside the address space stays inside it. -/
theorem Memory.within_write (cap : Nat) (m : Memory) (a : Nat) (v : Byte)
    (h : Memory.within cap m) (ha : a < cap) : Memory.within cap (m.write a v) := by
  have hf : Memory.within cap (m.filter fun c => c.1 ≠ a) :=
    fun c hc => h c (List.mem_of_mem_filter hc)
  unfold Memory.write
  simp only
  split
  · exact hf
  · intro c hc
    rcases (Memory.mem_insert _ a v c).1 hc with rfl | hc
    · exact ha
    · exact hf c hc

/-- A store inside the address space stays inside it. -/
theorem Memory.within_store (cap : Nat) (m : Memory) (a : Nat) (s : List Byte)
    (h : Memory.within cap m) (ha : a + s.length ≤ cap) : Memory.within cap (m.store a s) := by
  induction s generalizing m a with
  | nil => exact h
  | cons b rest ih =>
    simp only [List.length_cons] at ha
    exact ih _ _ (Memory.within_write cap m a b h (by omega)) (by omega)

theorem Memory.wf_tail (c : Host.Cell) (m : Memory) (h : Memory.wf (c :: m)) : Memory.wf m :=
  ⟨(List.pairwise_cons.1 h.1).2, fun d hd => h.2 d (List.mem_cons_of_mem _ hd)⟩

/-- An index below every entry of a canonical buffer is not listed. -/
theorem Memory.read_below (c : Host.Cell) (m : Memory) (h : Memory.wf (c :: m)) (i : Nat)
    (hi : i ≤ c.1) : Memory.read m i = unlistedByte := by
  induction m with
  | nil => rfl
  | cons d rest ih =>
    have hlt : c.1 < d.1 := (List.pairwise_cons.1 h.1).1 _ (by simp)
    have hwf : Memory.wf (c :: rest) := by
      refine ⟨h.1.sublist (by simp), fun e he => h.2 e ?_⟩
      rcases List.mem_cons.1 he with rfl | he
      · simp
      · simp [he]
    obtain ⟨k, b⟩ := d
    simp only [Memory.read]
    rw [if_neg (by simp only at hlt; omega)]
    exact ih hwf

/-- Equal memories are equal data: two canonical buffers that read the same everywhere are equal. -/
theorem Memory.ext_of_read (m m' : Memory) (h : Memory.wf m) (h' : Memory.wf m')
    (hr : ∀ i, m.read i = m'.read i) : m = m' := by
  induction m generalizing m' with
  | nil =>
    cases m' with
    | nil => rfl
    | cons d rest =>
      have hd := hr d.1
      simp only [Memory.read] at hd
      exact absurd hd.symm (by simpa [Memory.read] using h'.2 d List.mem_cons_self)
  | cons c rest ih =>
    cases m' with
    | nil =>
      have hd := hr c.1
      simp only [Memory.read] at hd
      exact absurd hd (by simpa [Memory.read] using h.2 c List.mem_cons_self)
    | cons d rest' =>
      have hc2 : c.2 ≠ unlistedByte := h.2 c List.mem_cons_self
      have hd2 : d.2 ≠ unlistedByte := h'.2 d List.mem_cons_self
      have hcd : c.1 = d.1 := by
        by_contra hne
        rcases Nat.lt_or_gt_of_ne hne with hlt | hgt
        · have := hr c.1
          rw [show Memory.read (d :: rest') c.1 = unlistedByte by
            simp only [Memory.read, if_neg (Ne.symm hne)]
            exact Memory.read_below d rest' h' _ hlt.le] at this
          simp [Memory.read] at this
          exact hc2 this
        · have := hr d.1
          rw [show Memory.read (c :: rest) d.1 = unlistedByte by
            simp only [Memory.read, if_neg hne]
            exact Memory.read_below c rest h _ hgt.le] at this
          simp [Memory.read] at this
          exact hd2 this.symm
      have hb : c.2 = d.2 := by
        have := hr c.1
        simpa [Memory.read, hcd] using this
      have hcd' : c = d := Prod.ext hcd hb
      subst hcd'
      rw [ih rest' (Memory.wf_tail _ _ h) (Memory.wf_tail _ _ h')]
      intro i
      by_cases hi : c.1 = i
      · subst hi
        rw [Memory.read_below c rest h _ le_rfl, Memory.read_below c rest' h' _ le_rfl]
      · have := hr i
        simpa [Memory.read, hi] using this

end Sys2Proof.Machine
end

