-- ==== Sys2Proof/Laws/State.lean ====
section
/-!
SUPPORT. What each named update of the state does to each field: one lemma per field per update. The two
updates of a buffer, which may not fit, are in Laws/Ops.lean.
-/
namespace Sys2Proof.Machine

/-! ## finish -/

@[simp] theorem finish_ibuf (s : State) : (finish s).ibuf = s.ibuf := rfl
@[simp] theorem finish_ilen (s : State) : (finish s).ilen = s.ilen := rfl
@[simp] theorem finish_obuf (s : State) : (finish s).obuf = s.obuf := rfl
@[simp] theorem finish_olen (s : State) : (finish s).olen = s.olen := rfl
@[simp] theorem finish_key (s : State) : (finish s).key = s.key := rfl
@[simp] theorem finish_kvalid (s : State) : (finish s).kvalid = s.kvalid := rfl
@[simp] theorem finish_cfg (s : State) : (finish s).cfg = s.cfg := rfl
@[simp] theorem finish_status (s : State) : (finish s).status = statusOk := rfl
@[simp] theorem finish_erracc (s : State) : (finish s).erracc = s.erracc := rfl
@[simp] theorem finish_frame (s : State) : (finish s).frame = s.frame := rfl
@[simp] theorem finish_port (s : State) : (finish s).port = s.port := rfl
@[simp] theorem finish_reply (s : State) : (finish s).reply = s.reply := rfl
@[simp] theorem finish_draws (s : State) : (finish s).draws = s.draws := rfl

/-! ## raise -/

@[simp] theorem raise_ibuf (c : ErrorCode) (s : State) : (raise c s).ibuf = s.ibuf := rfl
@[simp] theorem raise_ilen (c : ErrorCode) (s : State) : (raise c s).ilen = s.ilen := rfl
@[simp] theorem raise_obuf (c : ErrorCode) (s : State) : (raise c s).obuf = s.obuf := rfl
@[simp] theorem raise_olen (c : ErrorCode) (s : State) : (raise c s).olen = s.olen := rfl
@[simp] theorem raise_key (c : ErrorCode) (s : State) : (raise c s).key = s.key := rfl
@[simp] theorem raise_kvalid (c : ErrorCode) (s : State) : (raise c s).kvalid = s.kvalid := rfl
@[simp] theorem raise_cfg (c : ErrorCode) (s : State) : (raise c s).cfg = s.cfg := rfl
@[simp] theorem raise_status (c : ErrorCode) (s : State) : (raise c s).status = c.status := rfl
@[simp] theorem raise_erracc (c : ErrorCode) (s : State) : (raise c s).erracc = s.erracc ||| c.bit := rfl
@[simp] theorem raise_frame (c : ErrorCode) (s : State) : (raise c s).frame = s.frame := rfl
@[simp] theorem raise_port (c : ErrorCode) (s : State) : (raise c s).port = s.port := rfl
@[simp] theorem raise_reply (c : ErrorCode) (s : State) : (raise c s).reply = s.reply := rfl
@[simp] theorem raise_draws (c : ErrorCode) (s : State) : (raise c s).draws = s.draws := rfl

/-! ## consumeDraw -/

@[simp] theorem consumeDraw_ibuf (s : State) : (consumeDraw s).ibuf = s.ibuf := rfl
@[simp] theorem consumeDraw_ilen (s : State) : (consumeDraw s).ilen = s.ilen := rfl
@[simp] theorem consumeDraw_obuf (s : State) : (consumeDraw s).obuf = s.obuf := rfl
@[simp] theorem consumeDraw_olen (s : State) : (consumeDraw s).olen = s.olen := rfl
@[simp] theorem consumeDraw_key (s : State) : (consumeDraw s).key = s.key := rfl
@[simp] theorem consumeDraw_kvalid (s : State) : (consumeDraw s).kvalid = s.kvalid := rfl
@[simp] theorem consumeDraw_cfg (s : State) : (consumeDraw s).cfg = s.cfg := rfl
@[simp] theorem consumeDraw_status (s : State) : (consumeDraw s).status = s.status := rfl
@[simp] theorem consumeDraw_erracc (s : State) : (consumeDraw s).erracc = s.erracc := rfl
@[simp] theorem consumeDraw_frame (s : State) : (consumeDraw s).frame = s.frame := rfl
@[simp] theorem consumeDraw_port (s : State) : (consumeDraw s).port = s.port := rfl
@[simp] theorem consumeDraw_reply (s : State) : (consumeDraw s).reply = s.reply := rfl
@[simp] theorem consumeDraw_draws (s : State) : (consumeDraw s).draws = s.draws + 1 := rfl

/-! ## setFrame -/

@[simp] theorem setFrame_ibuf (f : FrameRegs) (s : State) : (setFrame f s).ibuf = s.ibuf := rfl
@[simp] theorem setFrame_ilen (f : FrameRegs) (s : State) : (setFrame f s).ilen = s.ilen := rfl
@[simp] theorem setFrame_obuf (f : FrameRegs) (s : State) : (setFrame f s).obuf = s.obuf := rfl
@[simp] theorem setFrame_olen (f : FrameRegs) (s : State) : (setFrame f s).olen = s.olen := rfl
@[simp] theorem setFrame_key (f : FrameRegs) (s : State) : (setFrame f s).key = s.key := rfl
@[simp] theorem setFrame_kvalid (f : FrameRegs) (s : State) : (setFrame f s).kvalid = s.kvalid := rfl
@[simp] theorem setFrame_cfg (f : FrameRegs) (s : State) : (setFrame f s).cfg = s.cfg := rfl
@[simp] theorem setFrame_status (f : FrameRegs) (s : State) : (setFrame f s).status = s.status := rfl
@[simp] theorem setFrame_erracc (f : FrameRegs) (s : State) : (setFrame f s).erracc = s.erracc := rfl
@[simp] theorem setFrame_frame (f : FrameRegs) (s : State) : (setFrame f s).frame = f := rfl
@[simp] theorem setFrame_port (f : FrameRegs) (s : State) : (setFrame f s).port = s.port := rfl
@[simp] theorem setFrame_reply (f : FrameRegs) (s : State) : (setFrame f s).reply = s.reply := rfl
@[simp] theorem setFrame_draws (f : FrameRegs) (s : State) : (setFrame f s).draws = s.draws := rfl

/-! ## setKey -/

@[simp] theorem setKey_ibuf (k : Block) (v : Bool) (s : State) : (setKey k v s).ibuf = s.ibuf := rfl
@[simp] theorem setKey_ilen (k : Block) (v : Bool) (s : State) : (setKey k v s).ilen = s.ilen := rfl
@[simp] theorem setKey_obuf (k : Block) (v : Bool) (s : State) : (setKey k v s).obuf = s.obuf := rfl
@[simp] theorem setKey_olen (k : Block) (v : Bool) (s : State) : (setKey k v s).olen = s.olen := rfl
@[simp] theorem setKey_key (k : Block) (v : Bool) (s : State) : (setKey k v s).key = k := rfl
@[simp] theorem setKey_kvalid (k : Block) (v : Bool) (s : State) : (setKey k v s).kvalid = v := rfl
@[simp] theorem setKey_cfg (k : Block) (v : Bool) (s : State) : (setKey k v s).cfg = s.cfg := rfl
@[simp] theorem setKey_status (k : Block) (v : Bool) (s : State) : (setKey k v s).status = s.status := rfl
@[simp] theorem setKey_erracc (k : Block) (v : Bool) (s : State) : (setKey k v s).erracc = s.erracc := rfl
@[simp] theorem setKey_frame (k : Block) (v : Bool) (s : State) : (setKey k v s).frame = s.frame := rfl
@[simp] theorem setKey_port (k : Block) (v : Bool) (s : State) : (setKey k v s).port = s.port := rfl
@[simp] theorem setKey_reply (k : Block) (v : Bool) (s : State) : (setKey k v s).reply = s.reply := rfl
@[simp] theorem setKey_draws (k : Block) (v : Bool) (s : State) : (setKey k v s).draws = s.draws := rfl

/-! ## setConfig -/

@[simp] theorem setConfig_ibuf (image : Byte) (s : State) : (setConfig image s).ibuf = s.ibuf := rfl
@[simp] theorem setConfig_ilen (image : Byte) (s : State) : (setConfig image s).ilen = s.ilen := rfl
@[simp] theorem setConfig_obuf (image : Byte) (s : State) : (setConfig image s).obuf = s.obuf := rfl
@[simp] theorem setConfig_olen (image : Byte) (s : State) : (setConfig image s).olen = s.olen := rfl
@[simp] theorem setConfig_key (image : Byte) (s : State) : (setConfig image s).key = s.key := rfl
@[simp] theorem setConfig_kvalid (image : Byte) (s : State) : (setConfig image s).kvalid = s.kvalid := rfl
@[simp] theorem setConfig_cfg (image : Byte) (s : State) : (setConfig image s).cfg = image := rfl
@[simp] theorem setConfig_status (image : Byte) (s : State) : (setConfig image s).status = s.status := rfl
@[simp] theorem setConfig_erracc (image : Byte) (s : State) : (setConfig image s).erracc = s.erracc := rfl
@[simp] theorem setConfig_frame (image : Byte) (s : State) : (setConfig image s).frame = s.frame := rfl
@[simp] theorem setConfig_port (image : Byte) (s : State) : (setConfig image s).port = s.port := rfl
@[simp] theorem setConfig_reply (image : Byte) (s : State) : (setConfig image s).reply = s.reply := rfl
@[simp] theorem setConfig_draws (image : Byte) (s : State) : (setConfig image s).draws = s.draws := rfl

/-! ## placeAction -/

@[simp] theorem placeAction_ibuf (a : HostAction) (s : State) : (placeAction a s).ibuf = s.ibuf := rfl
@[simp] theorem placeAction_ilen (a : HostAction) (s : State) : (placeAction a s).ilen = s.ilen := rfl
@[simp] theorem placeAction_obuf (a : HostAction) (s : State) : (placeAction a s).obuf = s.obuf := rfl
@[simp] theorem placeAction_olen (a : HostAction) (s : State) : (placeAction a s).olen = s.olen := rfl
@[simp] theorem placeAction_key (a : HostAction) (s : State) : (placeAction a s).key = s.key := rfl
@[simp] theorem placeAction_kvalid (a : HostAction) (s : State) : (placeAction a s).kvalid = s.kvalid := rfl
@[simp] theorem placeAction_cfg (a : HostAction) (s : State) : (placeAction a s).cfg = s.cfg := rfl
@[simp] theorem placeAction_status (a : HostAction) (s : State) : (placeAction a s).status = s.status := rfl
@[simp] theorem placeAction_erracc (a : HostAction) (s : State) : (placeAction a s).erracc = s.erracc := rfl
@[simp] theorem placeAction_frame (a : HostAction) (s : State) : (placeAction a s).frame = s.frame := rfl
@[simp] theorem placeAction_port (a : HostAction) (s : State) : (placeAction a s).port = a :: s.port := rfl
@[simp] theorem placeAction_reply (a : HostAction) (s : State) : (placeAction a s).reply = s.reply := rfl
@[simp] theorem placeAction_draws (a : HostAction) (s : State) : (placeAction a s).draws = s.draws := rfl

/-! ## dropFrame -/

@[simp] theorem dropFrame_ibuf (s : State) : (dropFrame s).ibuf = s.ibuf := rfl
@[simp] theorem dropFrame_ilen (s : State) : (dropFrame s).ilen = s.ilen := rfl
@[simp] theorem dropFrame_obuf (s : State) : (dropFrame s).obuf = s.obuf := rfl
@[simp] theorem dropFrame_olen (s : State) : (dropFrame s).olen = s.olen := rfl
@[simp] theorem dropFrame_key (s : State) : (dropFrame s).key = s.key := rfl
@[simp] theorem dropFrame_kvalid (s : State) : (dropFrame s).kvalid = s.kvalid := rfl
@[simp] theorem dropFrame_cfg (s : State) : (dropFrame s).cfg = s.cfg := rfl
@[simp] theorem dropFrame_status (s : State) : (dropFrame s).status = s.status := rfl
@[simp] theorem dropFrame_erracc (s : State) : (dropFrame s).erracc = s.erracc := rfl
@[simp] theorem dropFrame_port (s : State) : (dropFrame s).port = s.port := rfl
@[simp] theorem dropFrame_reply (s : State) : (dropFrame s).reply = s.reply := rfl
@[simp] theorem dropFrame_draws (s : State) : (dropFrame s).draws = s.draws := rfl
@[simp] theorem dropFrame_frame_fstate (s : State) : (dropFrame s).frame.fstate = .empty := rfl
@[simp] theorem dropFrame_frame_fleg (s : State) : (dropFrame s).frame.fleg = s.frame.fleg := rfl
@[simp] theorem dropFrame_frame_fhdr (s : State) : (dropFrame s).frame.fhdr = s.frame.fhdr := rfl
@[simp] theorem dropFrame_frame_fpt (s : State) : (dropFrame s).frame.fpt = s.frame.fpt := rfl
@[simp] theorem dropFrame_frame_fpv (s : State) : (dropFrame s).frame.fpv = s.frame.fpv := rfl
@[simp] theorem dropFrame_frame_fscene (s : State) :
    (dropFrame s).frame.fscene = s.frame.fscene := rfl
@[simp] theorem dropFrame_frame_fgid (s : State) : (dropFrame s).frame.fgid = s.frame.fgid := rfl
@[simp] theorem dropFrame_frame_foid (s : State) : (dropFrame s).frame.foid = s.frame.foid := rfl
@[simp] theorem dropFrame_frame_fcmd (s : State) : (dropFrame s).frame.fcmd = s.frame.fcmd := rfl
@[simp] theorem dropFrame_frame_fcmdv (s : State) : (dropFrame s).frame.fcmdv = s.frame.fcmdv := rfl
@[simp] theorem dropFrame_frame_fef (s : State) : (dropFrame s).frame.fef = s.frame.fef := rfl
@[simp] theorem dropFrame_frame_fplen (s : State) : (dropFrame s).frame.fplen = s.frame.fplen := rfl
@[simp] theorem dropFrame_frame_fpay (s : State) : (dropFrame s).frame.fpay = s.frame.fpay := rfl
@[simp] theorem dropFrame_frame_fcrcrx (s : State) :
    (dropFrame s).frame.fcrcrx = s.frame.fcrcrx := rfl
@[simp] theorem dropFrame_frame_fcrccalc (s : State) :
    (dropFrame s).frame.fcrccalc = s.frame.fcrccalc := rfl
@[simp] theorem dropFrame_frame_fcrcok (s : State) :
    (dropFrame s).frame.fcrcok = s.frame.fcrcok := rfl
@[simp] theorem dropFrame_frame_flvar (s : State) : (dropFrame s).frame.flvar = s.frame.flvar := rfl
@[simp] theorem dropFrame_frame_fdone (s : State) : (dropFrame s).frame.fdone = s.frame.fdone := rfl
@[simp] theorem dropFrame_frame_fplain (s : State) :
    (dropFrame s).frame.fplain = s.frame.fplain := rfl

/-! ## setCommandType -/

@[simp] theorem setCommandType_ibuf (cmd : Byte) (s : State) : (setCommandType cmd s).ibuf = s.ibuf := rfl
@[simp] theorem setCommandType_ilen (cmd : Byte) (s : State) : (setCommandType cmd s).ilen = s.ilen := rfl
@[simp] theorem setCommandType_obuf (cmd : Byte) (s : State) : (setCommandType cmd s).obuf = s.obuf := rfl
@[simp] theorem setCommandType_olen (cmd : Byte) (s : State) : (setCommandType cmd s).olen = s.olen := rfl
@[simp] theorem setCommandType_key (cmd : Byte) (s : State) : (setCommandType cmd s).key = s.key := rfl
@[simp] theorem setCommandType_kvalid (cmd : Byte) (s : State) : (setCommandType cmd s).kvalid = s.kvalid := rfl
@[simp] theorem setCommandType_cfg (cmd : Byte) (s : State) : (setCommandType cmd s).cfg = s.cfg := rfl
@[simp] theorem setCommandType_status (cmd : Byte) (s : State) : (setCommandType cmd s).status = s.status := rfl
@[simp] theorem setCommandType_erracc (cmd : Byte) (s : State) : (setCommandType cmd s).erracc = s.erracc := rfl
@[simp] theorem setCommandType_port (cmd : Byte) (s : State) : (setCommandType cmd s).port = s.port := rfl
@[simp] theorem setCommandType_reply (cmd : Byte) (s : State) : (setCommandType cmd s).reply = s.reply := rfl
@[simp] theorem setCommandType_draws (cmd : Byte) (s : State) : (setCommandType cmd s).draws = s.draws := rfl
@[simp] theorem setCommandType_frame_fstate (cmd : Byte) (s : State) :
    (setCommandType cmd s).frame.fstate = s.frame.fstate := rfl
@[simp] theorem setCommandType_frame_fleg (cmd : Byte) (s : State) :
    (setCommandType cmd s).frame.fleg = s.frame.fleg := rfl
@[simp] theorem setCommandType_frame_fhdr (cmd : Byte) (s : State) :
    (setCommandType cmd s).frame.fhdr = s.frame.fhdr := rfl
@[simp] theorem setCommandType_frame_fpt (cmd : Byte) (s : State) :
    (setCommandType cmd s).frame.fpt = s.frame.fpt := rfl
@[simp] theorem setCommandType_frame_fpv (cmd : Byte) (s : State) :
    (setCommandType cmd s).frame.fpv = s.frame.fpv := rfl
@[simp] theorem setCommandType_frame_fscene (cmd : Byte) (s : State) :
    (setCommandType cmd s).frame.fscene = s.frame.fscene := rfl
@[simp] theorem setCommandType_frame_fgid (cmd : Byte) (s : State) :
    (setCommandType cmd s).frame.fgid = s.frame.fgid := rfl
@[simp] theorem setCommandType_frame_foid (cmd : Byte) (s : State) :
    (setCommandType cmd s).frame.foid = s.frame.foid := rfl
@[simp] theorem setCommandType_frame_fcmd (cmd : Byte) (s : State) :
    (setCommandType cmd s).frame.fcmd = cmd := rfl
@[simp] theorem setCommandType_frame_fcmdv (cmd : Byte) (s : State) :
    (setCommandType cmd s).frame.fcmdv = true := rfl
@[simp] theorem setCommandType_frame_fef (cmd : Byte) (s : State) :
    (setCommandType cmd s).frame.fef = s.frame.fef := rfl
@[simp] theorem setCommandType_frame_fplen (cmd : Byte) (s : State) :
    (setCommandType cmd s).frame.fplen = s.frame.fplen := rfl
@[simp] theorem setCommandType_frame_fpay (cmd : Byte) (s : State) :
    (setCommandType cmd s).frame.fpay = s.frame.fpay := rfl
@[simp] theorem setCommandType_frame_fcrcrx (cmd : Byte) (s : State) :
    (setCommandType cmd s).frame.fcrcrx = s.frame.fcrcrx := rfl
@[simp] theorem setCommandType_frame_fcrccalc (cmd : Byte) (s : State) :
    (setCommandType cmd s).frame.fcrccalc = s.frame.fcrccalc := rfl
@[simp] theorem setCommandType_frame_fcrcok (cmd : Byte) (s : State) :
    (setCommandType cmd s).frame.fcrcok = s.frame.fcrcok := rfl
@[simp] theorem setCommandType_frame_flvar (cmd : Byte) (s : State) :
    (setCommandType cmd s).frame.flvar = s.frame.flvar := rfl
@[simp] theorem setCommandType_frame_fdone (cmd : Byte) (s : State) :
    (setCommandType cmd s).frame.fdone = s.frame.fdone := rfl
@[simp] theorem setCommandType_frame_fplain (cmd : Byte) (s : State) :
    (setCommandType cmd s).frame.fplain = s.frame.fplain := rfl

/-! ## setEncryptFlag -/

@[simp] theorem setEncryptFlag_ibuf (ef : Byte) (s : State) : (setEncryptFlag ef s).ibuf = s.ibuf := rfl
@[simp] theorem setEncryptFlag_ilen (ef : Byte) (s : State) : (setEncryptFlag ef s).ilen = s.ilen := rfl
@[simp] theorem setEncryptFlag_obuf (ef : Byte) (s : State) : (setEncryptFlag ef s).obuf = s.obuf := rfl
@[simp] theorem setEncryptFlag_olen (ef : Byte) (s : State) : (setEncryptFlag ef s).olen = s.olen := rfl
@[simp] theorem setEncryptFlag_key (ef : Byte) (s : State) : (setEncryptFlag ef s).key = s.key := rfl
@[simp] theorem setEncryptFlag_kvalid (ef : Byte) (s : State) : (setEncryptFlag ef s).kvalid = s.kvalid := rfl
@[simp] theorem setEncryptFlag_cfg (ef : Byte) (s : State) : (setEncryptFlag ef s).cfg = s.cfg := rfl
@[simp] theorem setEncryptFlag_status (ef : Byte) (s : State) : (setEncryptFlag ef s).status = s.status := rfl
@[simp] theorem setEncryptFlag_erracc (ef : Byte) (s : State) : (setEncryptFlag ef s).erracc = s.erracc := rfl
@[simp] theorem setEncryptFlag_port (ef : Byte) (s : State) : (setEncryptFlag ef s).port = s.port := rfl
@[simp] theorem setEncryptFlag_reply (ef : Byte) (s : State) : (setEncryptFlag ef s).reply = s.reply := rfl
@[simp] theorem setEncryptFlag_draws (ef : Byte) (s : State) : (setEncryptFlag ef s).draws = s.draws := rfl
@[simp] theorem setEncryptFlag_frame_fstate (ef : Byte) (s : State) :
    (setEncryptFlag ef s).frame.fstate = s.frame.fstate := rfl
@[simp] theorem setEncryptFlag_frame_fleg (ef : Byte) (s : State) :
    (setEncryptFlag ef s).frame.fleg = s.frame.fleg := rfl
@[simp] theorem setEncryptFlag_frame_fhdr (ef : Byte) (s : State) :
    (setEncryptFlag ef s).frame.fhdr = s.frame.fhdr := rfl
@[simp] theorem setEncryptFlag_frame_fpt (ef : Byte) (s : State) :
    (setEncryptFlag ef s).frame.fpt = s.frame.fpt := rfl
@[simp] theorem setEncryptFlag_frame_fpv (ef : Byte) (s : State) :
    (setEncryptFlag ef s).frame.fpv = s.frame.fpv := rfl
@[simp] theorem setEncryptFlag_frame_fscene (ef : Byte) (s : State) :
    (setEncryptFlag ef s).frame.fscene = s.frame.fscene := rfl
@[simp] theorem setEncryptFlag_frame_fgid (ef : Byte) (s : State) :
    (setEncryptFlag ef s).frame.fgid = s.frame.fgid := rfl
@[simp] theorem setEncryptFlag_frame_foid (ef : Byte) (s : State) :
    (setEncryptFlag ef s).frame.foid = s.frame.foid := rfl
@[simp] theorem setEncryptFlag_frame_fcmd (ef : Byte) (s : State) :
    (setEncryptFlag ef s).frame.fcmd = s.frame.fcmd := rfl
@[simp] theorem setEncryptFlag_frame_fcmdv (ef : Byte) (s : State) :
    (setEncryptFlag ef s).frame.fcmdv = s.frame.fcmdv := rfl
@[simp] theorem setEncryptFlag_frame_fef (ef : Byte) (s : State) :
    (setEncryptFlag ef s).frame.fef = ef := rfl
@[simp] theorem setEncryptFlag_frame_fplen (ef : Byte) (s : State) :
    (setEncryptFlag ef s).frame.fplen = s.frame.fplen := rfl
@[simp] theorem setEncryptFlag_frame_fpay (ef : Byte) (s : State) :
    (setEncryptFlag ef s).frame.fpay = s.frame.fpay := rfl
@[simp] theorem setEncryptFlag_frame_fcrcrx (ef : Byte) (s : State) :
    (setEncryptFlag ef s).frame.fcrcrx = s.frame.fcrcrx := rfl
@[simp] theorem setEncryptFlag_frame_fcrccalc (ef : Byte) (s : State) :
    (setEncryptFlag ef s).frame.fcrccalc = s.frame.fcrccalc := rfl
@[simp] theorem setEncryptFlag_frame_fcrcok (ef : Byte) (s : State) :
    (setEncryptFlag ef s).frame.fcrcok = s.frame.fcrcok := rfl
@[simp] theorem setEncryptFlag_frame_flvar (ef : Byte) (s : State) :
    (setEncryptFlag ef s).frame.flvar = s.frame.flvar := rfl
@[simp] theorem setEncryptFlag_frame_fdone (ef : Byte) (s : State) :
    (setEncryptFlag ef s).frame.fdone = s.frame.fdone := rfl
@[simp] theorem setEncryptFlag_frame_fplain (ef : Byte) (s : State) :
    (setEncryptFlag ef s).frame.fplain = s.frame.fplain := rfl

/-! ## cachePlain -/

@[simp] theorem cachePlain_ibuf (p : List Byte) (s : State) : (cachePlain p s).ibuf = s.ibuf := rfl
@[simp] theorem cachePlain_ilen (p : List Byte) (s : State) : (cachePlain p s).ilen = s.ilen := rfl
@[simp] theorem cachePlain_obuf (p : List Byte) (s : State) : (cachePlain p s).obuf = s.obuf := rfl
@[simp] theorem cachePlain_olen (p : List Byte) (s : State) : (cachePlain p s).olen = s.olen := rfl
@[simp] theorem cachePlain_key (p : List Byte) (s : State) : (cachePlain p s).key = s.key := rfl
@[simp] theorem cachePlain_kvalid (p : List Byte) (s : State) : (cachePlain p s).kvalid = s.kvalid := rfl
@[simp] theorem cachePlain_cfg (p : List Byte) (s : State) : (cachePlain p s).cfg = s.cfg := rfl
@[simp] theorem cachePlain_status (p : List Byte) (s : State) : (cachePlain p s).status = s.status := rfl
@[simp] theorem cachePlain_erracc (p : List Byte) (s : State) : (cachePlain p s).erracc = s.erracc := rfl
@[simp] theorem cachePlain_port (p : List Byte) (s : State) : (cachePlain p s).port = s.port := rfl
@[simp] theorem cachePlain_reply (p : List Byte) (s : State) : (cachePlain p s).reply = s.reply := rfl
@[simp] theorem cachePlain_draws (p : List Byte) (s : State) : (cachePlain p s).draws = s.draws := rfl
@[simp] theorem cachePlain_frame_fstate (p : List Byte) (s : State) :
    (cachePlain p s).frame.fstate = s.frame.fstate := rfl
@[simp] theorem cachePlain_frame_fleg (p : List Byte) (s : State) :
    (cachePlain p s).frame.fleg = s.frame.fleg := rfl
@[simp] theorem cachePlain_frame_fhdr (p : List Byte) (s : State) :
    (cachePlain p s).frame.fhdr = s.frame.fhdr := rfl
@[simp] theorem cachePlain_frame_fpt (p : List Byte) (s : State) :
    (cachePlain p s).frame.fpt = s.frame.fpt := rfl
@[simp] theorem cachePlain_frame_fpv (p : List Byte) (s : State) :
    (cachePlain p s).frame.fpv = s.frame.fpv := rfl
@[simp] theorem cachePlain_frame_fscene (p : List Byte) (s : State) :
    (cachePlain p s).frame.fscene = s.frame.fscene := rfl
@[simp] theorem cachePlain_frame_fgid (p : List Byte) (s : State) :
    (cachePlain p s).frame.fgid = s.frame.fgid := rfl
@[simp] theorem cachePlain_frame_foid (p : List Byte) (s : State) :
    (cachePlain p s).frame.foid = s.frame.foid := rfl
@[simp] theorem cachePlain_frame_fcmd (p : List Byte) (s : State) :
    (cachePlain p s).frame.fcmd = s.frame.fcmd := rfl
@[simp] theorem cachePlain_frame_fcmdv (p : List Byte) (s : State) :
    (cachePlain p s).frame.fcmdv = s.frame.fcmdv := rfl
@[simp] theorem cachePlain_frame_fef (p : List Byte) (s : State) :
    (cachePlain p s).frame.fef = s.frame.fef := rfl
@[simp] theorem cachePlain_frame_fplen (p : List Byte) (s : State) :
    (cachePlain p s).frame.fplen = s.frame.fplen := rfl
@[simp] theorem cachePlain_frame_fpay (p : List Byte) (s : State) :
    (cachePlain p s).frame.fpay = s.frame.fpay := rfl
@[simp] theorem cachePlain_frame_fcrcrx (p : List Byte) (s : State) :
    (cachePlain p s).frame.fcrcrx = s.frame.fcrcrx := rfl
@[simp] theorem cachePlain_frame_fcrccalc (p : List Byte) (s : State) :
    (cachePlain p s).frame.fcrccalc = s.frame.fcrccalc := rfl
@[simp] theorem cachePlain_frame_fcrcok (p : List Byte) (s : State) :
    (cachePlain p s).frame.fcrcok = s.frame.fcrcok := rfl
@[simp] theorem cachePlain_frame_flvar (p : List Byte) (s : State) :
    (cachePlain p s).frame.flvar = s.frame.flvar := rfl
@[simp] theorem cachePlain_frame_fdone (p : List Byte) (s : State) :
    (cachePlain p s).frame.fdone = true := rfl
@[simp] theorem cachePlain_frame_fplain (p : List Byte) (s : State) :
    (cachePlain p s).frame.fplain = p := rfl

end Sys2Proof.Machine
end

