-- ==== Sys2Proof/Laws/Ops.lean ====
section
/-!
SUPPORT. For each shared operation, what it can do, said once: the operations on the two buffers, the ends of
a command, the frame's small helpers, the width of a length register, and the step.
-/
namespace Sys2Proof.Machine

/-! ## Operands -/

@[simp] theorem length_input (s : State) : (input s).length = s.ilen := by simp [input]

@[simp] theorem length_output (s : State) : (output s).length = s.olen := by simp [output]

@[simp] theorem length_inputSlice (s : State) (a n : Nat) : (inputSlice s a n).length = n := by
  simp [inputSlice]

/-- The whole input is the slice of its first ILEN bytes. -/
theorem inputSlice_zero_ilen (s : State) : inputSlice s 0 s.ilen = input s := rfl

/-- A byte of the input is the byte of IBUF at its index. -/
theorem byteAt_input (s : State) (i : Nat) (h : i < s.ilen) :
    byteAt (input s) i = s.ibuf.read i := by
  have hi : i < (input s).length := by simpa using h
  rw [byteAt, List.getD_eq_getElem _ _ hi]
  exact (Memory.getElem_slice s.ibuf 0 s.ilen i (by simpa using h)).trans (by simp)

/-- The input depends on IBUF below ILEN only. -/
theorem input_congr (s t : State) (hl : t.ilen = s.ilen)
    (hr : ∀ a < s.ilen, t.ibuf.read a = s.ibuf.read a) : input t = input s := by
  unfold input
  rw [hl]
  exact Memory.slice_congr _ _ _ _ fun i hi => by simpa using hr i hi

/-! ## setInput, setOutput, finishWith -/

/-- `setInput` answers exactly for a string that fits IBUF, and then this is all it does. -/
theorem setInput_eq_some (c : Params) (bytes : List Byte) (s t : State) :
    setInput c bytes s = some t ↔
      bytes.length ≤ c.ibufCap ∧
        t = { s with ibuf := s.ibuf.store 0 bytes, ilen := bytes.length } := by
  unfold setInput
  split <;> simp_all [eq_comm]

theorem setInput_eq_none (c : Params) (bytes : List Byte) (s : State) :
    setInput c bytes s = none ↔ c.ibufCap < bytes.length := by
  unfold setInput
  split <;> simp_all

/-- What the new input is. -/
theorem input_of_setInput (c : Params) (bytes : List Byte) (s t : State)
    (h : setInput c bytes s = some t) : input t = bytes := by
  obtain ⟨_, rfl⟩ := (setInput_eq_some _ _ _ _).1 h
  exact Memory.slice_store _ _ _

/-- `setOutput` answers exactly for a string that fits OBUF, and then this is all it does. -/
theorem setOutput_eq_some (c : Params) (bytes : List Byte) (s t : State) :
    setOutput c bytes s = some t ↔
      bytes.length ≤ c.obufCap ∧
        t = { s with obuf := s.obuf.store 0 bytes, olen := bytes.length } := by
  unfold setOutput
  split <;> simp_all [eq_comm]

theorem setOutput_eq_none (c : Params) (bytes : List Byte) (s : State) :
    setOutput c bytes s = none ↔ c.obufCap < bytes.length := by
  unfold setOutput
  split <;> simp_all

/-- A command that ends in output completes exactly when the output fits OBUF, and then this is all it
does. -/
theorem finishWith_eq_next (c : Params) (bytes : List Byte) (s t : State) :
    finishWith c bytes s = .next t ↔
      bytes.length ≤ c.obufCap ∧
        t = { s with
          obuf := s.obuf.store 0 bytes
          olen := bytes.length
          status := statusOk } := by
  unfold finishWith setOutput
  by_cases h : bytes.length ≤ c.obufCap
  · simp [h, finish, eq_comm]
  · simp [h]

/-- A command whose output fits OBUF completes. -/
theorem finishWith_completes (c : Params) (bytes : List Byte) (s : State)
    (h : bytes.length ≤ c.obufCap) : ∃ t, finishWith c bytes s = .next t :=
  ⟨_, (finishWith_eq_next c bytes s _).2 ⟨h, rfl⟩⟩

/-- A command that ends in output is never refused. -/
theorem finishWith_not_refused (c : Params) (bytes : List Byte) (s : State) (r : Refusal) :
    finishWith c bytes s ≠ .refused r := by
  unfold finishWith
  split <;> simp

/-- What the new output is, and what stays of OBUF. -/
theorem output_of_finishWith (c : Params) (bytes : List Byte) (s t : State)
    (h : finishWith c bytes s = .next t) :
    output t = bytes ∧ ∀ a, bytes.length ≤ a → t.obuf.read a = s.obuf.read a := by
  obtain ⟨_, rfl⟩ := (finishWith_eq_next _ _ _ _).1 h
  exact ⟨Memory.slice_store _ _ _, fun a ha => Memory.read_store_above _ _ _ _ (by simpa using ha)⟩

/-- A command that ends in an error has a next state: `raise` of the state it is given. -/
@[simp] theorem fails_eq (c : ErrorCode) (s : State) : fails c s = .next (raise c s) := rfl

/-! ## The error codes -/

theorem ErrorCode.number_bounds (c : ErrorCode) : 1 ≤ c.number ∧ c.number ≤ 8 := by
  cases c <;> decide

theorem ErrorCode.status_ne_ok (c : ErrorCode) : c.status ≠ statusOk := by
  cases c <;> decide

theorem ErrorCode.bit_ne_zero (c : ErrorCode) : c.bit ≠ 0#16 := by
  cases c <;> decide

/-! ## The seed draw -/

/-- A drawn seed is in [1,127]. -/
theorem seedOf_bounds (draw : Fin 127) : 1 ≤ (seedOf draw).toNat ∧ (seedOf draw).toNat ≤ 127 := by
  have h := draw.isLt
  simp only [seedOf, BitVec.toNat_ofNat]
  omega

/-! ## Integers from bytes -/

theorem be16_toNat (hi lo : Byte) : (be16 hi lo).toNat = hi.toNat * 256 + lo.toNat := by
  rw [be16, BitVec.toNat_append, ← Nat.shiftLeft_add_eq_or_of_lt lo.isLt, Nat.shiftLeft_eq]

@[simp] theorem hiByte_be16 (hi lo : Byte) : hiByte (be16 hi lo) = hi := by
  apply BitVec.eq_of_toNat_eq
  have h1 := hi.isLt
  have h2 := lo.isLt
  rw [hiByte, BitVec.extractLsb'_toNat, be16_toNat, Nat.shiftRight_eq_div_pow]
  omega

@[simp] theorem loByte_be16 (hi lo : Byte) : loByte (be16 hi lo) = lo := by
  apply BitVec.eq_of_toNat_eq
  have h2 := lo.isLt
  rw [loByte, BitVec.extractLsb'_toNat, be16_toNat, Nat.shiftRight_eq_div_pow]
  omega

/-- Every protocolType is exactly one of modern and legacy. -/
theorem isLegacy_eq_not_isModern (pt : Byte) : isLegacy pt = !isModern pt := by
  revert pt
  decide

/-! ## Blocks -/

@[simp] theorem Block.length_toBytes (b : Block) : (Block.toBytes b).length = 16 := by
  simp [Block.toBytes, Column.toBytes]

@[simp] theorem Block.ofBytes_toBytes (b : Block) : Block.ofBytes (Block.toBytes b) = b := rfl

/-- A block made from a string of 16 bytes gives the string back. -/
theorem Block.toBytes_ofBytes (bs : List Byte) (h : bs.length = 16) :
    Block.toBytes (Block.ofBytes bs) = bs := by
  apply List.ext_getElem (by simp [h])
  intro i h1 h2
  have hi : i < 16 := by omega
  have hg : ∀ j, (hj : j < 16) → bs.getD j 0#8 = bs[j]'(by omega) :=
    fun j hj => List.getD_eq_getElem _ _ (by omega)
  interval_cases i <;> simp [Block.toBytes, Column.toBytes, Block.ofBytes, Column.ofBytes, h]

@[simp] theorem Block.xor_xor_cancel (a b : Block) : Block.xor (Block.xor a b) b = a := by
  simp [Block.xor, Column.xor]

/-! ## The ciphers' lengths -/

@[simp] theorem length_legacyXor (p : List Byte) (k : Byte) : (legacyXor p k).length = p.length := by
  simp [legacyXor]

@[simp] theorem length_blocksOf (n : Nat) (bs : List Byte) : (blocksOf n bs).length = n := by
  induction n generalizing bs with
  | zero => rfl
  | succ n ih => simp [blocksOf, ih]

@[simp] theorem length_cbcEncBlocks (k prev : Block) (ms : List Block) :
    (cbcEncBlocks k prev ms).length = 16 * ms.length := by
  induction ms generalizing prev with
  | nil => rfl
  | cons m rest ih =>
    simp [cbcEncBlocks, ih]
    omega

@[simp] theorem length_cbcDecBlocks (k prev : Block) (cs : List Block) :
    (cbcDecBlocks k prev cs).length = 16 * cs.length := by
  induction cs generalizing prev with
  | nil => rfl
  | cons c rest ih =>
    simp [cbcDecBlocks, ih]
    omega

/-- What `unpad` returns is a prefix of what it is given. -/
theorem length_le_of_unpad (d p : List Byte) (h : unpad d = some p) : p.length ≤ d.length := by
  unfold unpad at h
  simp only at h
  split at h
  · cases h
  · split at h
    · cases h
    · cases h
      simp

/-- A decrypted string is never longer than the ciphertext (10_state.md R36). -/
theorem length_le_of_cbcDec (c p : List Byte) (k : Block) (h : cbcDec c k = some p) :
    p.length ≤ c.length := by
  unfold cbcDec at h
  split at h
  · cases h
  · have := length_le_of_unpad _ _ h
    simp only [length_cbcDecBlocks, length_blocksOf] at this
    omega

/-! ## The width of a length register -/

/-- 9 bits for every capacity that fits them (10_state.md R19). -/
theorem lengthBits_eq_nine (cap : Nat) (h : cap < 512) : lengthBits cap = 9 := if_pos h

/-- The register has room for every length up to the capacity. -/
theorem lt_two_pow_lengthBits (cap v : Nat) (h : v ≤ cap) : v < 2 ^ lengthBits cap := by
  refine h.trans_lt ?_
  unfold lengthBits
  split
  · assumption
  · exact Nat.lt_log2_self

/-! ## The port and the step -/

theorem takeAction_placeAction (a : HostAction) (s : State) :
    takeAction (placeAction a s) = some (a, s) := rfl

/-- With no action pending the step leaves the state as it is. -/
theorem step_of_port_nil (s : State) (h : s.port = []) : step s = .next s := by
  simp [step, stepPort, takeAction, h]

/-- With an action pending the step performs it, the action being taken from the port. -/
theorem step_of_port_cons (s : State) (a : HostAction) (rest : List HostAction)
    (h : s.port = a :: rest) : step s = perform a { s with port := rest } := by
  simp [step, stepPort, takeAction, h]

/-- Everything a step can do. -/
theorem step_cases (s : State) :
    (s.port = [] ∧ step s = .next s) ∨
      ∃ a rest, s.port = a :: rest ∧ step s = perform a { s with port := rest } := by
  cases h : s.port with
  | nil => exact .inl ⟨rfl, step_of_port_nil s h⟩
  | cons a rest => exact .inr ⟨a, rest, rfl, step_of_port_cons s a rest h⟩

/-- Everything issuing a word can do: run the command it decodes to, or end in ILLEGAL_COMMAND. -/
theorem issueWord_cases (cw : CommandWord) (s : State) :
    (∃ i, decode cw = .ok i ∧ issueWord cw s = exec i s) ∨
      ((∃ e, decode cw = .error e) ∧ issueWord cw s = .next (raise .illegalCommand s)) := by
  unfold issueWord
  cases decode cw with
  | ok i => exact .inl ⟨i, rfl, rfl⟩
  | error e => exact .inr ⟨⟨e, rfl⟩, rfl⟩

end Sys2Proof.Machine
end

