-- ==== Sys2Proof/Laws/Exec.lean ====
section
/-!
SUPPORT. Everything a command can do, said once: `command_cases` gives, for each next state and all parameters,
the update of the state before that it is, and which commands make that update; `exec_cases` is that at
`Config.params`.
-/
namespace Sys2Proof.Machine

/-- The state after an output `bytes`, with STATUS = OK. -/
def emitted (bytes : List Byte) (s : State) : State :=
  { s with obuf := s.obuf.store 0 bytes, olen := bytes.length, status := statusOk }

/-- The state after an input `bytes`. -/
def taken (bytes : List Byte) (s : State) : State :=
  { s with ibuf := s.ibuf.store 0 bytes, ilen := bytes.length }

theorem eq_emitted_of_finishWith {c : Params} {bytes : List Byte} {s t : State}
    (h : finishWith c bytes s = .next t) : bytes.length ≤ c.obufCap ∧ t = emitted bytes s :=
  (finishWith_eq_next c bytes s t).1 h

/-- The next states of a command `i` with the parameters `c` in a state `s`. -/
inductive After (c : Params) (i : Instr) (s : State) : State → Prop where
  /-- Any command but FPARSE, ending in an error. -/
  | error (e : ErrorCode) (h : i ≠ .fparse) : After c i s (raise e s)
  /-- FPARSE, ending in an error. -/
  | dropped (e : ErrorCode) (h : i = .fparse) : After c i s (raise e (dropFrame s))
  /-- A command whose one effect is its output. -/
  | output (bytes : List Byte) (hl : bytes.length ≤ c.obufCap)
      (h : i ∈ [Instr.crc8, .ldecs, .aesenc, .aesdec, .fbuild] ∨
        ∃ imm, i ∈ [Instr.crclut imm, .lenc imm, .ldec imm]) : After c i s (emitted bytes s)
  /-- LENCR. -/
  | seeded (bytes : List Byte) (hl : bytes.length ≤ c.obufCap) (h : i = .lencr) :
      After c i s (emitted bytes (consumeDraw s))
  /-- FDATA from the cache. -/
  | cached (hl : s.frame.fplain.length ≤ c.obufCap) (h : i = .fdata)
      (hp : s.frame.fstate = .parsed) (hd : s.frame.fdone = true) :
      After c i s (emitted s.frame.fplain s)
  /-- FDATA, decoding. -/
  | decoded (p : List Byte) (hl : p.length ≤ c.obufCap) (h : i = .fdata)
      (hp : s.frame.fstate = .parsed) (hd : s.frame.fdone = false)
      (hlen : p.length ≤ s.frame.fpay.length) : After c i s (emitted p (cachePlain p s))
  | nop (h : i = .nop) : After c i s (finish s)
  | moved (hl : (Sys2Proof.Machine.output s).length ≤ c.ibufCap) (h : i = .movoi) :
      After c i s (finish (taken (Sys2Proof.Machine.output s) s))
  | keySet (k : Block) (v : Bool) (h : i = .kload ∨ i = .kclr) : After c i s (finish (setKey k v s))
  | configured (imm : Byte) (h : i = .cfgw imm) (hr : cfgReserved imm = 0#7) :
      After c i s (finish (setConfig imm s))
  | parsed (f : FrameHeader) (h : i = .fparse) (hf : parseFrame (input s) = .ok f) :
      After c i s (finish (setFrame (parsedRegs c (input s) f) s))
  /-- FINIT with a drawn encryptFlag. -/
  | drawnShell (ef : Byte) (h : i = .finit) (h7 : s.ilen = 7)
      (hd : drawsEncryptFlag c (byteAt (input s) 0) = true) :
      After c i s (finish (setFrame (shellRegs c (input s) ef) (consumeDraw s)))
  /-- FINIT with the default encryptFlag. -/
  | shell (h : i = .finit) (h7 : s.ilen = 7)
      (hd : drawsEncryptFlag c (byteAt (input s) 0) = false) :
      After c i s (finish (setFrame (shellRegs c (input s) c.appCommandFlag) s))
  | commandSet (imm : Byte) (h : i = .fsetcmd imm) : After c i s (finish (setCommandType imm s))
  | flagSet (imm : Byte) (h : i = .fsetef imm) : After c i s (finish (setEncryptFlag imm s))

/-- A decoded payload is never longer than the payload it came from (10_state.md R36). -/
theorem length_le_of_decodePayload (s : State) (p : List Byte) (h : decodePayload s = .ok p) :
    p.length ≤ s.frame.fpay.length := by
  unfold decodePayload at h
  split at h
  · cases h
    simp
  · split at h
    · cases h
      simp
    · split at h
      · cases h
      · split at h
        · cases h
        · cases h
          exact length_le_of_cbcDec _ _ _ ‹_›

theorem after_movoi (c : Params) (s t : State) (h : movoiWith c s = .next t) : After c .movoi s t := by
  unfold movoiWith at h
  split at h <;> cases h
  · exact .error _ (by simp)
  · obtain ⟨hl, rfl⟩ := (setInput_eq_some _ _ _ _).1 ‹_›
    exact .moved hl rfl

theorem after_fdata (c : Params) (s t : State) (h : fdataWith c s = .next t) : After c .fdata s t := by
  unfold fdataWith at h
  by_cases hp : s.frame.fstate = .parsed
  · rw [if_neg (not_not.2 hp)] at h
    by_cases hd : s.frame.fdone = true
    · rw [if_pos hd] at h
      obtain ⟨hl, rfl⟩ := eq_emitted_of_finishWith h
      exact .cached hl rfl hp hd
    · rw [if_neg hd] at h
      split at h
      · cases h
        exact .error _ (by simp)
      · split at h
        · cases h
          exact .error _ (by simp)
        · obtain ⟨hl, rfl⟩ := eq_emitted_of_finishWith h
          exact .decoded _ hl rfl hp (by simpa using hd) (length_le_of_decodePayload _ _ ‹_›)
  · rw [if_pos hp] at h
    cases h
    exact .error _ (by simp)

theorem after_finit (c : Params) (draw : Fin 127) (s t : State) (h : finitWith c draw s = .next t) :
    After c .finit s t := by
  unfold finitWith at h
  by_cases h7 : s.ilen = 7
  · rw [if_neg (not_not.2 h7)] at h
    by_cases hd : drawsEncryptFlag c (byteAt (input s) 0) = true
    · rw [if_pos hd] at h
      cases h
      exact .drawnShell _ rfl h7 hd
    · rw [if_neg hd] at h
      cases h
      exact .shell rfl h7 (by simpa using hd)
  · rw [if_pos h7] at h
    cases h
    exact .error _ (by simp)

/-- Everything a command can do, with the parameters and the draw given. -/
theorem command_cases (c : Params) (draw : Fin 127) (i : Instr) (s t : State)
    (h : command c draw i s = .next t) : After c i s t := by
  cases i <;> simp only [command] at h
  case nop => cases h; exact .nop rfl
  case crc8 => obtain ⟨hl, rfl⟩ := eq_emitted_of_finishWith h; exact .output _ hl (.inl (by simp))
  case crclut imm =>
    obtain ⟨hl, rfl⟩ := eq_emitted_of_finishWith h
    exact .output _ hl (.inr ⟨imm, by simp⟩)
  case movoi => exact after_movoi c s t h
  case lenc imm =>
    obtain ⟨hl, rfl⟩ := eq_emitted_of_finishWith h
    exact .output _ hl (.inr ⟨imm, by simp⟩)
  case lencr => obtain ⟨hl, rfl⟩ := eq_emitted_of_finishWith h; exact .seeded _ hl rfl
  case ldec imm =>
    obtain ⟨hl, rfl⟩ := eq_emitted_of_finishWith h
    exact .output _ hl (.inr ⟨imm, by simp⟩)
  case ldecs =>
    unfold ldecsWith at h
    simp only at h
    split at h
    · cases h; exact .error _ (by simp)
    · obtain ⟨hl, rfl⟩ := eq_emitted_of_finishWith h; exact .output _ hl (.inl (by simp))
  case kload =>
    unfold execKload at h
    split at h <;> cases h
    · exact .error _ (by simp)
    · exact .keySet _ _ (by simp)
  case kclr => cases h; exact .keySet _ _ (by simp)
  case aesenc =>
    unfold aesencWith at h
    split at h
    · cases h; exact .error _ (by simp)
    · obtain ⟨hl, rfl⟩ := eq_emitted_of_finishWith h; exact .output _ hl (.inl (by simp))
  case aesdec =>
    unfold aesdecWith at h
    split at h
    · cases h; exact .error _ (by simp)
    · split at h
      · cases h; exact .error _ (by simp)
      · obtain ⟨hl, rfl⟩ := eq_emitted_of_finishWith h; exact .output _ hl (.inl (by simp))
  case fparse =>
    unfold fparseWith at h
    split at h <;> cases h
    · exact .dropped _ rfl
    · exact .parsed _ rfl ‹_›
  case fdata => exact after_fdata c s t h
  case finit => exact after_finit c draw s t h
  case fsetcmd imm =>
    unfold execFsetcmd at h
    split at h <;> cases h
    · exact .error _ (by simp)
    · exact .commandSet _ rfl
  case fsetef imm =>
    unfold execFsetef at h
    split at h <;> cases h
    · exact .error _ (by simp)
    · exact .flagSet _ rfl
  case fbuild =>
    unfold fbuildWith at h
    split at h
    · cases h; exact .error _ (by simp)
    · split at h
      · cases h; exact .error _ (by simp)
      · obtain ⟨hl, rfl⟩ := eq_emitted_of_finishWith h; exact .output _ hl (.inl (by simp))
  case cfgw imm =>
    unfold execCfgw at h
    split at h <;> cases h
    · exact .error _ (by simp)
    · exact .configured _ rfl (by simpa using ‹¬ cfgReserved _ ≠ _›)

/-- `exec` is the command at `Config.params` and the next draw (10_state.md R41). -/
theorem exec_eq_command (i : Instr) (s : State) : exec i s = command Config.params (nextDraw s) i s := by
  cases i <;> rfl

/-- Everything a command can do. -/
theorem exec_cases (i : Instr) (s t : State) (h : exec i s = .next t) : After Config.params i s t :=
  command_cases Config.params (nextDraw s) i s t (by rw [← exec_eq_command]; exact h)

/-- Everything a step of the block with its arguments given can do: the command it decodes to, or
ILLEGAL_COMMAND; the code given is the STATUS left. -/
theorem blockStep_eq_next (c : Params) (draw : Fin 127) (cw : CommandWord) (s t : State)
    (code : BitVec 8) :
    blockStep c draw cw s = .next (t, code) ↔ commandWord c draw cw s = .next t ∧ code = t.status := by
  unfold blockStep
  cases h : commandWord c draw cw s with
  | next u =>
    simp only [Host.Outcome.next.injEq, Prod.mk.injEq]
    exact ⟨fun ⟨h1, h2⟩ => by subst h1; exact ⟨rfl, h2.symm⟩, fun ⟨h1, h2⟩ => by
      subst h1; exact ⟨rfl, h2.symm⟩⟩
  | fault f => simp
  | refused f => simp

end Sys2Proof.Machine
end

