-- ==== Sys2Proof/Laws/PerInstr.lean ====
section
/-!
SUPPORT. A family of statements about every command, one lemma per constructor: the word of a command is a
legal word by the three conditions of 30_encoding.md R66, which are written apart from the decoder.
-/
namespace Sys2Proof.Laws

/-- The command's word is legal (30_encoding.md R66). -/
def EncodedWordIsLegal.Statement (i : Instr) : Prop := wellFormedWord (encode i) = true

theorem EncodedWordIsLegal.nop : EncodedWordIsLegal.Statement .nop := rfl
theorem EncodedWordIsLegal.crc8 : EncodedWordIsLegal.Statement .crc8 := rfl
theorem EncodedWordIsLegal.movoi : EncodedWordIsLegal.Statement .movoi := rfl
theorem EncodedWordIsLegal.lencr : EncodedWordIsLegal.Statement .lencr := rfl
theorem EncodedWordIsLegal.ldecs : EncodedWordIsLegal.Statement .ldecs := rfl
theorem EncodedWordIsLegal.kload : EncodedWordIsLegal.Statement .kload := rfl
theorem EncodedWordIsLegal.kclr : EncodedWordIsLegal.Statement .kclr := rfl
theorem EncodedWordIsLegal.aesenc : EncodedWordIsLegal.Statement .aesenc := rfl
theorem EncodedWordIsLegal.aesdec : EncodedWordIsLegal.Statement .aesdec := rfl
theorem EncodedWordIsLegal.fparse : EncodedWordIsLegal.Statement .fparse := rfl
theorem EncodedWordIsLegal.fdata : EncodedWordIsLegal.Statement .fdata := rfl
theorem EncodedWordIsLegal.finit : EncodedWordIsLegal.Statement .finit := rfl
theorem EncodedWordIsLegal.fbuild : EncodedWordIsLegal.Statement .fbuild := rfl

theorem EncodedWordIsLegal.crclut (imm : Byte) : EncodedWordIsLegal.Statement (.crclut imm) := by
  revert imm
  unfold Statement
  decide +kernel

theorem EncodedWordIsLegal.lenc (imm : Byte) : EncodedWordIsLegal.Statement (.lenc imm) := by
  revert imm
  unfold Statement
  decide +kernel

theorem EncodedWordIsLegal.ldec (imm : Byte) : EncodedWordIsLegal.Statement (.ldec imm) := by
  revert imm
  unfold Statement
  decide +kernel

theorem EncodedWordIsLegal.fsetcmd (imm : Byte) : EncodedWordIsLegal.Statement (.fsetcmd imm) := by
  revert imm
  unfold Statement
  decide +kernel

theorem EncodedWordIsLegal.fsetef (imm : Byte) : EncodedWordIsLegal.Statement (.fsetef imm) := by
  revert imm
  unfold Statement
  decide +kernel

theorem EncodedWordIsLegal.cfgw (imm : Byte) : EncodedWordIsLegal.Statement (.cfgw imm) := by
  revert imm
  unfold Statement
  decide +kernel

end Sys2Proof.Laws
end

