-- ==== Sys2Proof/Tests/Slice0.lean ====
section
/-!
SUPPORT. Tests on fixed values: what WellFormed refuses, words written out from the opcode map, one step of
each command against spec/95_test_vectors.md, and for every obligation with hypotheses a state and operands
that meet them. The expected values are the spec's.
-/
namespace Sys2Proof.Tests

-- One theorem after the other: every check of its own thread takes a large stack.
set_option Elab.async false

open Sys2Proof.Machine

/-! ## Small states and what is looked at -/

/-- A byte string from its hex digits. -/
def hex (text : String) : List Byte := (parseHex text.toList).getD []

/-- The key `K` of spec/95_test_vectors.md. -/
def keyK : List Byte := hex "e817e962c7176c296403f646129f362c"

/-- The frame `FIX` of spec/95_test_vectors.md. -/
def fixture : List Byte := hex "7f5a0503020001000154aa1095a3bd4703fde2b76397587b6ee44b7b28"

/-- A state with another input. -/
def withInput (bytes : List Byte) (s : State) : State :=
  { s with ibuf := Memory.store [] 0 bytes, ilen := bytes.length }

/-- A state with an input of `n` zero bytes. -/
def withZeros (n : Nat) (s : State) : State := { s with ibuf := [], ilen := n }

/-- A state with an output of `n` zero bytes. -/
def withZeroOutput (n : Nat) (s : State) : State := { s with obuf := [], olen := n }

/-- A state with the key `K` loaded. -/
def withKey (s : State) : State := { s with key := Block.ofBytes keyK, kvalid := true }

/-- A state with other frame registers. -/
def withFrame (f : FrameRegs) (s : State) : State := { s with frame := f }

/-- A state with host actions pending. -/
def withPort (actions : List HostAction) (s : State) : State := { s with port := actions }

/-- The frame registers of V1, with FLVAR 0. -/
def parsedFixture : FrameRegs :=
  { FrameRegs.reset with
    fstate := .parsed, fhdr := (0x7F#8, 0x5A#8), fpt := 5#8, fpv := 3#8, fscene := 2#8
    fgid := 1#16, foid := 1#16, fcmd := 0x54#8, fcmdv := true, fef := 0xAA#8, fplen := 16#8
    fpay := hex "95a3bd4703fde2b76397587b6ee44b7b", fcrcrx := 0x28#8, fcrccalc := 0x28#8
    fcrcok := true }

/-- The frame registers of a legacy frame as in program P3. -/
def parsedLegacy : FrameRegs :=
  { FrameRegs.reset with
    fstate := .parsed, fleg := true, fhdr := (0x7F#8, 0x5A#8), fpt := 3#8, fcmd := 0x41#8
    fcmdv := true, fef := 0x2A#8, fplen := 5#8, fpay := hex "1417161110", fcrcrx := 0x2B#8
    fcrccalc := 0x2B#8, fcrcok := true }

/-- A modern shell as in row F17, with its commandType set. -/
def modernShell : FrameRegs :=
  { FrameRegs.reset with
    fstate := .shell, fhdr := (0x7F#8, 0x5A#8), fpt := 5#8, fpv := 3#8, fscene := 2#8
    fgid := 1#16, foid := 1#16, fcmd := 0x54#8, fcmdv := true, fef := 0xAA#8 }

/-- A legacy shell as in row F28. -/
def legacyShell : FrameRegs :=
  { FrameRegs.reset with
    fstate := .shell, fleg := true, fhdr := (0x7F#8, 0x5A#8), fpt := 3#8, fcmd := 0x41#8
    fcmdv := true, fef := 0x2A#8 }

/-- The next state, where there is one. -/
def nextState (r : Result) : Option State :=
  match r with
  | .next t => some t
  | .fault _ => none
  | .refused _ => none

/-- STATUS after the step. -/
def statusAfter (r : Result) : Option Nat := (nextState r).map fun t => t.status.toNat

/-- STATUS and the current output after the step. -/
def shown (r : Result) : Option (Nat × List Byte) :=
  (nextState r).map fun t => (t.status.toNat, output t)

/-- STATUS and ERRACC after the step. -/
def errors (r : Result) : Option (Nat × Nat) :=
  (nextState r).map fun t => (t.status.toNat, t.erracc.toNat)

/-- The refusal of a step that is refused. -/
def refusalOf (r : Result) : Option Refusal :=
  match r with
  | .next _ => none
  | .fault _ => none
  | .refused e => some e

/-- A next state that passes a check is a next state with what was checked. -/
theorem next_of_check (r : Result) (p : State → Bool) (h : (nextState r).any p = true) :
    ∃ t, r = .next t ∧ p t = true := by
  cases r with
  | next t => exact ⟨t, rfl, h⟩
  | fault f => cases h
  | refused f => cases h

/-! ## WellFormed refuses -/

/-- RSV nonzero: its lowest and its highest bit (K4). -/
theorem test_wf_refuses_reserved_bits :
    reservedClear 0x00010000#32 = false ∧ reservedClear 0x80000000#32 = false ∧
      wellFormedWord 0x00010000#32 = false ∧ wellFormedWord 0x80000000#32 = false := by decide

/-- The ends of the five unused ranges of R66. -/
theorem test_wf_refuses_unused_opcodes :
    ∀ op ∈ [0x04#8, 0x0F#8, 0x14#8, 0x1F#8, 0x24#8, 0x2F#8, 0x36#8, 0x3F#8, 0x41#8, 0xFF#8],
      opcodeUsed (assembleWord op 0#8) = false ∧ wellFormedWord (assembleWord op 0#8) = false := by
  decide

/-- IMM8 nonzero where the row says "0": NOP and CRC8 with IMM8 = 1 (K1, C12). -/
theorem test_wf_refuses_stray_immediate :
    immediateAdmitted 0x00000100#32 = false ∧ wellFormedWord 0x00000100#32 = false ∧
      wellFormedWord 0x00000101#32 = false := by decide

/-- A LOAD of 257 bytes is ill formed, of 256 bytes well formed. -/
theorem test_wf_refuses_long_load :
    HostAction.wellFormed (.load (List.replicate 257 0#8)) = false ∧
      HostAction.wellFormed (.load (List.replicate 256 0#8)) = true := by decide +kernel

/-- An operand that is missing, stray or above 255, and an unused opcode. -/
theorem test_wf_refuses_operands :
    operandAdmitted 0x02#8 none = false ∧ operandAdmitted 0x00#8 (some 0) = false ∧
      operandAdmitted 0x02#8 (some 256) = false ∧ operandAdmitted 0x02#8 (some 255) = true ∧
      SourceLine.wellFormed (.command 0x02#8 none) = false ∧
      SourceLine.wellFormed (.command 0x01#8 (some 1)) = false ∧
      SourceLine.wellFormed (.command 0x04#8 none) = false := by decide

/-- SETKEY of other than 16 bytes, each field of DESC out of range, LOAD and PARSE of 257 bytes. -/
theorem test_wf_refuses_source_lines :
    SourceLine.wellFormed (.setkey (List.replicate 15 0#8)) = false ∧
      SourceLine.wellFormed (.setkey (List.replicate 17 0#8)) = false ∧
      SourceLine.wellFormed (.desc 256 0 0 0 0) = false ∧
      SourceLine.wellFormed (.desc 0 256 0 0 0) = false ∧
      SourceLine.wellFormed (.desc 0 0 256 0 0) = false ∧
      SourceLine.wellFormed (.desc 0 0 0 65536 0) = false ∧
      SourceLine.wellFormed (.desc 0 0 0 0 65536) = false ∧
      SourceLine.wellFormed (.desc 255 255 255 65535 65535) = true ∧
      SourceLine.wellFormed (.load (List.replicate 257 0#8)) = false ∧
      SourceLine.wellFormed (.parse (List.replicate 257 0#8)) = false := by decide +kernel

/-! ## Decoding words written out from 30_encoding.md R62 and R64

Each word is RSV (16 zero bits), then IMM8, then OP. -/

/-- The control and CRC8 rows: OP 0x00 to 0x03 and 0x40. -/
theorem test_decode_control_and_crc8 :
    decode 0b0000000000000000_00000000_00000000#32 = .ok .nop ∧
      decode 0b0000000000000000_00000000_00000001#32 = .ok .crc8 ∧
      decode 0b0000000000000000_00000101_00000010#32 = .ok (.crclut 0x05#8) ∧
      decode 0b0000000000000000_00000000_00000011#32 = .ok .movoi ∧
      decode 0b0000000000000000_00000001_01000000#32 = .ok (.cfgw 0x01#8) := ⟨rfl, rfl, rfl, rfl, rfl⟩

/-- The legacy cipher rows: OP 0x10 to 0x13. -/
theorem test_decode_legacy :
    decode 0b0000000000000000_00101010_00010000#32 = .ok (.lenc 0x2A#8) ∧
      decode 0b0000000000000000_00000000_00010001#32 = .ok .lencr ∧
      decode 0b0000000000000000_00101010_00010010#32 = .ok (.ldec 0x2A#8) ∧
      decode 0b0000000000000000_00000000_00010011#32 = .ok .ldecs := ⟨rfl, rfl, rfl, rfl⟩

/-- The AES rows: OP 0x20 to 0x23. -/
theorem test_decode_aes :
    decode 0b0000000000000000_00000000_00100000#32 = .ok .kload ∧
      decode 0b0000000000000000_00000000_00100001#32 = .ok .kclr ∧
      decode 0b0000000000000000_00000000_00100010#32 = .ok .aesenc ∧
      decode 0b0000000000000000_00000000_00100011#32 = .ok .aesdec := ⟨rfl, rfl, rfl, rfl⟩

/-- The frame rows: OP 0x30 to 0x35. -/
theorem test_decode_frame :
    decode 0b0000000000000000_00000000_00110000#32 = .ok .fparse ∧
      decode 0b0000000000000000_00000000_00110001#32 = .ok .fdata ∧
      decode 0b0000000000000000_00000000_00110010#32 = .ok .finit ∧
      decode 0b0000000000000000_01010100_00110011#32 = .ok (.fsetcmd 0x54#8) ∧
      decode 0b0000000000000000_11111111_00110100#32 = .ok (.fsetef 0xFF#8) ∧
      decode 0b0000000000000000_00000000_00110101#32 = .ok .fbuild := ⟨rfl, rfl, rfl, rfl, rfl, rfl⟩

/-- K1, K3 to K6: which check rejects the word; RSV is looked at before OP, OP before IMM8 (R65). -/
theorem test_decode_rejects_by_name :
    decode 0x00000100#32 = .error .strayImmediate ∧
      decode 0x00000004#32 = .error .unusedOpcode ∧
      decode 0x00010000#32 = .error .reservedBits ∧
      decode 0x000000FF#32 = .error .unusedOpcode ∧
      decode 0x00000141#32 = .error .unusedOpcode ∧
      decode 0x000101FF#32 = .error .reservedBits := ⟨rfl, rfl, rfl, rfl, rfl, rfl⟩

/-- The assembled words of R75's examples. -/
theorem test_encode_examples :
    encode (.crclut 0x05#8) = 0x00000502#32 ∧ encode (.lenc 0x2A#8) = 0x00002A10#32 ∧
      encode (.fsetcmd 0x54#8) = 0x00005433#32 ∧ encode (.cfgw 0x01#8) = 0x00000140#32 ∧
      encode .fbuild = 0x00000035#32 := by decide

/-- A table word decodes, a word with a reserved bit does not, and the placed word is the next to run. -/
theorem test_table_word_and_placed_word :
    decodeTableWord 32 0x00000502 = some (.crclut 0x05#8) ∧ decodeTableWord 32 0x00010002 = none ∧
      shown (step (State.reset.withFetchWord 32 0x00000502)) = some (0, [0x3F#8]) := by
  decide +kernel

/-! ## One step of each command (spec/95_test_vectors.md, Part 2) -/

/-- K2: NOP clears STATUS, not ERRACC. -/
theorem test_nop :
    errors (exec .nop { State.reset with status := 8#8, erracc := 0x0100#16 }) = some (0, 0x0100) := by
  decide +kernel

/-- C4, C5. -/
theorem test_crc8 :
    shown (exec .crc8 (withInput (hex "313233343536373839") State.reset)) = some (0, [0xA1#8]) ∧
      shown (exec .crc8 (withInput (fixture.take 28) State.reset)) = some (0, [0x28#8]) := by
  decide +kernel

/-- C9, C10, C11. -/
theorem test_crclut :
    shown (exec (.crclut 0x05#8) State.reset) = some (0, [0x3F#8]) ∧
      shown (exec (.crclut 0x80#8) State.reset) = some (0, [0x8C#8]) ∧
      shown (exec (.crclut 0xFF#8) State.reset) = some (0, [0x35#8]) := by decide +kernel

/-- K9: the output becomes the input. -/
theorem test_movoi :
    (nextState (exec .movoi { withInput [1#8] State.reset with obuf := [(0, 0x5E#8)], olen := 1 })).map
      (fun t => (input t, t.ilen, output t)) = some ([0x5E#8], 1, [0x5E#8]) := by decide +kernel

/-- K8, and CFGW 0x01. -/
theorem test_cfgw :
    errors (exec (.cfgw 0x02#8) State.reset) = some (8, 0x0100) ∧
      (nextState (exec (.cfgw 0x01#8) State.reset)).map (fun t => t.cfg) = some 0x01#8 := by
  decide +kernel

/-- L2, L4. -/
theorem test_lenc :
    shown (exec (.lenc 0x2A#8) (withInput (hex "0102030405") State.reset)) =
        some (0, hex "1417161110") ∧
      shown (exec (.lenc 0xFF#8) (withInput (hex "0102030405") State.reset)) =
        some (0, hex "c1c2c3c4c5") := by decide +kernel

/-- L10, L9: LENCR with the draw given. -/
theorem test_lencr_with_the_draw :
    shown (encodeAppendingSeed Config.params 0x11#8 (withInput (hex "0102030405") State.reset)) =
        some (0, hex "2f2c2d2a2b11") ∧
      shown (encodeAppendingSeed Config.params 0x7F#8 State.reset) = some (0, [0x7F#8]) := by decide +kernel

/-- L5. -/
theorem test_ldec :
    shown (exec (.ldec 0x2A#8) (withInput (hex "1417161110") State.reset)) =
      some (0, hex "0102030405") := by decide +kernel

/-- L12, L8 and L7. -/
theorem test_ldecs :
    shown (exec .ldecs (withInput (hex "2f2c2d2a2b11") State.reset)) = some (0, hex "0102030405") ∧
      shown (exec .ldecs (withInput [0x11#8] State.reset)) = some (0, []) ∧
      errors (exec .ldecs State.reset) = some (2, 0x0004) := by decide +kernel

/-- A4, A3. -/
theorem test_kload :
    (nextState (exec .kload (withInput keyK State.reset))).map
        (fun t => (t.key.c0.r0, t.key.c3.r3, t.kvalid)) = some (0xE8#8, 0x2C#8, true) ∧
      errors (exec .kload (withZeros 15 State.reset)) = some (4, 0x0010) := by decide +kernel

/-- A14. -/
theorem test_kclr :
    (nextState (exec .kclr (withKey State.reset))).map (fun t => (t.key, t.kvalid)) =
      some (zeroBlock, false) := by decide +kernel

/-- A6, A1. -/
theorem test_aesenc :
    shown (exec .aesenc (withInput (hex "05013f0202") (withKey State.reset))) =
        some (0, hex "95a3bd4703fde2b76397587b6ee44b7b") ∧
      errors (exec .aesenc State.reset) = some (4, 0x0010) := by decide +kernel

/-- A8: the chaining over two blocks. -/
theorem test_aesenc_two_blocks :
    shown (exec .aesenc (withZeros 16 (withKey State.reset))) =
      some (0, hex "70d74e91b8e27fb4c5dc6d0d2d2571d1f02f78e5f62cf2c394d6bd28ae554c8b") := by
  decide +kernel

/-- A7, A10, A11. -/
theorem test_aesdec :
    shown (exec .aesdec
        (withInput (hex "95a3bd4703fde2b76397587b6ee44b7b") (withKey State.reset))) =
        some (0, hex "05013f0202") ∧
      errors (exec .aesdec (withInput (hex "95a3bd") (withKey State.reset))) = some (5, 0x0020) ∧
      errors (exec .aesdec (withKey State.reset)) = some (5, 0x0020) := by decide +kernel

/-- A13, A12: garbage that ends in 0x01 is valid padding, a bad pad is not. -/
theorem test_aesdec_padding :
    shown (exec .aesdec
        (withInput (hex "b2000000000000000000000000000000") (withKey State.reset))) =
        some (0, hex "28ff497c3863ca3572fe3745ca92d9") ∧
      statusAfter (exec .aesdec (withZeros 16 (withKey State.reset))) = some 5 := by decide +kernel

/-- FIPS-197: the block and round key 10 (42_aes.md R108, R109). -/
theorem test_aes_check_values :
    Block.toBytes (aesEnc (Block.ofBytes (hex "00112233445566778899aabbccddeeff"))
        (Block.ofBytes (hex "000102030405060708090a0b0c0d0e0f"))) =
        hex "69c4e0d86a7b0430d8cdb78070b4c55a" ∧
      Block.toBytes (roundKey (Block.ofBytes (hex "000102030405060708090a0b0c0d0e0f")) 10) =
        hex "13111d7fe3944a17f307a78b4d2b30c5" := by decide +kernel

/-- F1, F4, F12, F13: V1 but FLVAR, the 7-byte legacy frame, extra bytes, the header not checked. -/
theorem test_fparse :
    (nextState (exec .fparse (withInput fixture State.reset))).map
        (fun t => { t.frame with flvar := 0#8 }) = some parsedFixture ∧
      (nextState (exec .fparse (withInput (hex "7f5a0141000081") State.reset))).map
        (fun t => (t.frame.fleg, t.frame.fcmd, t.frame.fplen, t.frame.fcrccalc, t.frame.fcrcok)) =
        some (true, 0x41#8, 0#8, 0x81#8, true) ∧
      (nextState (exec .fparse (withInput (hex "7f5a01410000eeeeb4") State.reset))).map
        (fun t => (t.frame.fpay, t.frame.fcrcrx, t.frame.fcrcok)) = some ([], 0xB4#8, true) ∧
      (nextState (exec .fparse (withInput (hex "00000141000000") State.reset))).map
        (fun t => (t.frame.fhdr, t.frame.fcrccalc, t.frame.fcrcok)) =
        some ((0#8, 0#8), 0x15#8, false) := by decide +kernel

/-- F5, F6, F7, F10, F11: the errors of FPARSE; F30: a failed FPARSE drops the frame and keeps FDONE. -/
theorem test_fparse_errors :
    statusAfter (exec .fparse (withInput (hex "7f5a01410000") State.reset)) = some 1 ∧
      statusAfter (exec .fparse (withInput (hex "7f5a0500000015") State.reset)) = some 1 ∧
      statusAfter (exec .fparse (withInput (hex "7f5a0000000000000000aa00") State.reset)) = some 1 ∧
      statusAfter (exec .fparse (withInput (fixture.set 11 0x80#8) State.reset)) = some 2 ∧
      statusAfter (exec .fparse (withInput (fixture.take 28) State.reset)) = some 2 ∧
      (nextState (exec .fparse (withInput (hex "7f5a05")
          (withFrame { parsedFixture with fdone := true } State.reset)))).map
        (fun t => (t.frame.fstate, t.frame.fdone, t.frame.fcmd, t.erracc)) =
        some (.empty, true, 0x54#8, 0x0002#16) := by decide +kernel

/-- F3, F2: with the key and without. -/
theorem test_fdata :
    (nextState (exec .fdata (withFrame parsedFixture (withKey State.reset)))).map
        (fun t => (t.status.toNat, output t, t.frame.fdone, t.frame.fplain)) =
        some (0, hex "05013f0202", true, hex "05013f0202") ∧
      errors (exec .fdata (withFrame parsedFixture State.reset)) = some (6, 0x0040) := by
  decide +kernel

/-- F14, F16, P3: CRC mismatch, cache hit without key, legacy payload. -/
theorem test_fdata_other_paths :
    errors (exec .fdata (withFrame { parsedFixture with fcrcok := false } (withKey State.reset))) =
        some (3, 0x0008) ∧
      shown (exec .fdata (withFrame
        { parsedFixture with fcrcok := false, fdone := true, fplain := [7#8] } State.reset)) =
        some (0, [7#8]) ∧
      shown (exec .fdata (withFrame parsedLegacy State.reset)) = some (0, hex "0102030405") := by
  decide +kernel

/-- F17, F24. -/
theorem test_finit :
    (nextState (exec .finit (withInput (hex "05030200010001") State.reset))).map
        (fun t => { t.frame with flvar := 0#8, fcmd := 0x54#8, fcmdv := true }) = some modernShell ∧
      errors (exec .finit (withInput (hex "050302000100") State.reset)) = some (2, 0x0004) := by
  decide +kernel

/-- FSETCMD on a shell, F21. -/
theorem test_fsetcmd :
    (nextState (exec (.fsetcmd 0x19#8) (withFrame modernShell State.reset))).map
        (fun t => (t.frame.fcmd, t.frame.fcmdv)) = some (0x19#8, true) ∧
      errors (exec (.fsetcmd 0x01#8) State.reset) = some (6, 0x0040) := by decide +kernel

/-- FSETEF on a shell, F22. -/
theorem test_fsetef :
    (nextState (exec (.fsetef 0x2A#8) (withFrame legacyShell State.reset))).map
        (fun t => t.frame.fef) = some 0x2A#8 ∧
      errors (exec (.fsetef 0x01#8) State.reset) = some (6, 0x0040) := by decide +kernel

/-- F27, F28: the modern frame FIX and the legacy frame. -/
theorem test_fbuild :
    shown (exec .fbuild
        (withInput (hex "05013f0202") (withFrame modernShell (withKey State.reset)))) =
        some (0, fixture) ∧
      shown (exec .fbuild (withInput (hex "0102030405") (withFrame legacyShell State.reset))) =
        some (0, hex "7f5a03412a0514171611102b") := by decide +kernel

/-- F18 (with FCMD 0x19), F19, F20, F23. -/
theorem test_fbuild_other_paths :
    shown (exec .fbuild (withFrame { modernShell with fcmd := 0x19#8 } State.reset)) =
        some (0, hex "7f5a0503020001000119aa00b6") ∧
      errors (exec .fbuild (withZeros 1 (withFrame modernShell State.reset))) = some (7, 0x0080) ∧
      errors (exec .fbuild State.reset) = some (6, 0x0040) ∧
      errors (exec .fbuild (withFrame { modernShell with fcmdv := false } State.reset)) =
        some (6, 0x0040) := by decide +kernel

/-- Lines of text: R75's examples, R76, R77. -/
theorem test_assembler :
    assembleLine "CRCLUT 0x05        ; cw = 0x00000502".toList = some [.issue 0x00000502#32] ∧
      assembleLine "LENC 42".toList = some [.issue 0x00002A10#32] ∧
      assembleLine "LOAD".toList = some [.load []] ∧
      assembleLine "READ ERRACC".toList = some [.read .erracc] ∧
      assembleLine "DESC 5, 3, 2, 1, 0x0102".toList =
        some [.load (hex "05030200010102"), .issue 0x00000032#32] ∧
      assembleLine "NOP 0".toList = none ∧ assembleLine "LENC 256".toList = none := by
  decide +kernel

/-! ## Witnesses: the hypotheses of every obligation are met

One theorem for each obligation that has hypotheses, each of its clauses at a boundary of its range. -/

theorem witness_DecodedWordIsTheCommandsWord :
    decode 0x0000FF02#32 = .ok (.crclut 0xFF#8) ∧ decode 0x00000035#32 = .ok .fbuild := ⟨rfl, rfl⟩

theorem witness_StepRunsDecodedCommand :
    (withPort [.issue 0x00000502#32, .reset] State.reset).port = [.issue 0x00000502#32, .reset] ∧
      decode 0x00000502#32 = .ok (.crclut 0x05#8) := ⟨rfl, rfl⟩

theorem witness_IllegalWordWritesStatusAndErraccOnly :
    (withPort [.issue 0x00000100#32] State.reset).port = [.issue 0x00000100#32] ∧
      wellFormedWord 0x00000100#32 = false ∧
      errors (step (withPort [.issue 0x00000100#32] State.reset)) = some (8, 0x0100) ∧
      2 ≤ (0x02#8 : Byte).toNat ∧ 0x00000240#32 = assembleWord 0x40#8 0x02#8 ∧
      errors (step (withPort [.issue 0x00000240#32] State.reset)) = some (8, 0x0100) := by
  decide +kernel

theorem witness_LoadReplacesTheInput :
    (List.replicate 256 0xFF#8).length ≤ 256 ∧ 256 < (List.replicate 257 0xFF#8).length ∧
      statusAfter (step (withPort [.load (List.replicate 256 0x00#8)] State.reset)) = some 0 ∧
      refusalOf (step (withPort [.load (List.replicate 257 0xFF#8)] State.reset)) =
        some .loadTooLong := by decide +kernel

theorem witness_ReadChangesNothingInTheBlock :
    (withPort [.read .status] State.reset).port = [.read .status] := rfl

theorem witness_ReadValueFitsTheRegister :
    (withZeros 256 State.reset).ilen ≤ 256 ∧ (withZeroOutput 272 State.reset).olen ≤ 272 ∧
      readReg Config.params .ilen (withZeros 256 State.reset) = .bits 9 256 ∧
      readReg Config.params .olen (withZeroOutput 272 State.reset) = .bits 9 272 ∧
      parsedFixture.fstate = .parsed ∧ modernShell.fstate = .shell ∧
      FrameRegs.reset.fstate = .empty := by decide +kernel

/-- 00_scope.md R6 admits IBUF_CAP = 256 with OBUF_CAP = 512; 0..256 fits the 9 bits of 10_state.md R19 and
0..512 does not. -/
def widerOutput : Params := { Config.params with obufCap := 512 }

theorem test_length_widths_by_own_capacity :
    widerOutput.Admitted ∧
      readReg widerOutput .ilen (withZeros 256 State.reset) = .bits 9 256 ∧
      readReg widerOutput .olen (withZeroOutput 512 State.reset) = .bits 10 512 ∧
      readReg { widerOutput with obufCap := 511 } .olen (withZeroOutput 511 State.reset) =
        .bits 9 511 := by decide +kernel

theorem witness_ReadValueFitsTheRegister_frame : FrameOk parsedFixture := by decide +kernel

theorem witness_ResetActionRestoresEveryRegister :
    (withPort [.reset] (withKey State.reset)).port = [.reset] := rfl

theorem witness_StepWithNothingPendingWaits : (withKey State.reset).port = [] := rfl

theorem witness_StepKeepsTheInvariants :
    Invariants Config.params (withPort [.issue 0x00000031#32] (withFrame parsedLegacy State.reset)) ∧
      statusAfter (step (withPort [.issue 0x00000031#32] (withFrame parsedLegacy State.reset))) =
        some 0 := by decide +kernel

/-- Larger capacities, which 00_scope.md R6 admits. -/
def largerParams : Params := { Config.params with ibufCap := 300, obufCap := 316 }

/-- Both parameters are admitted, and a buffer at its capacity is. -/
theorem witness_EveryCommandWordCompletes :
    Config.params.Admitted ∧ largerParams.Admitted ∧
      BuffersOk Config.params (withZeroOutput 272 (withZeros 256 State.reset)) ∧
      BuffersOk largerParams (withZeroOutput 316 (withZeros 300 State.reset)) := by decide +kernel

theorem witness_EveryCommandWordCompletes_frames :
    FrameOk parsedFixture ∧ FrameOk parsedLegacy ∧ FrameOk modernShell ∧ FrameOk FrameRegs.reset :=
  ⟨by decide +kernel, by decide +kernel, by decide +kernel, by decide +kernel⟩

theorem witness_ErrorsWriteStatusAndErraccOnly :
    (∃ t, issueWord 0x00000020#32 State.reset = .next t ∧ (t.status != 0#8) = true) ∧
      (∃ t, issueWord 0x00000030#32 State.reset = .next t ∧ (t.status != 0#8) = true) ∧
      (∃ t, issueWord 0x00000100#32 State.reset = .next t ∧ (t.status != 0#8) = true) :=
  ⟨next_of_check _ _ (by decide +kernel), next_of_check _ _ (by decide +kernel),
    next_of_check _ _ (by decide +kernel)⟩

theorem witness_ErraccAccumulatesTheErrorCodes :
    (∃ t, issueWord 0x00000020#32 { State.reset with erracc := 0x0100#16 } = .next t ∧
        (t.erracc == 0x0110#16) = true) ∧
      (∃ t, perform (.load [1#8]) { State.reset with erracc := 0x0100#16 } = .next t ∧
        (t.erracc == 0x0100#16) = true) ∧
      (∃ t, perform .reset { State.reset with erracc := 0x0100#16 } = .next t ∧
        (t.erracc == 0x0000#16) = true) :=
  ⟨next_of_check _ _ (by decide +kernel), next_of_check _ _ (by decide +kernel),
    next_of_check _ _ (by decide +kernel)⟩

theorem witness_ErraccZeroMeansEveryCommandEndedOk :
    HostAction.reset ∉ [HostAction.issue 0x00000020#32, .issue 0x00000000#32] ∧
      NoErrors State.reset ∧
      (run [.issue 0x00000020#32, .issue 0x00000000#32] State.reset).map (fun r => r.2) =
        some [4#8, 0#8] := by decide +kernel

theorem witness_RegistersWrittenByTheirCommandsOnly :
    Instr.nop ≠ .movoi ∧ ¬ Claims.mayWriteOutput .kload ∧ (∀ imm, Instr.nop ≠ .cfgw imm) ∧
      Instr.nop ≠ .kload ∧ Instr.nop ≠ .kclr ∧
      (∃ t, exec .nop State.reset = .next t ∧ (t.status == 0#8) = true) := by
  refine ⟨by decide, ?_, by simp, by decide, by decide, next_of_check _ _ (by decide +kernel)⟩
  simp [Claims.mayWriteOutput]

theorem witness_FrameRegistersWrittenByTheirCommandsOnly :
    (∃ t, exec .nop (withFrame parsedFixture State.reset) = .next t ∧ t.frame.fcmdv = true) ∧
      Instr.nop ≠ .fparse ∧ Instr.nop ≠ .finit ∧ Instr.nop ≠ .fdata ∧
      (∀ imm, Instr.nop ≠ .fsetcmd imm) ∧ (∀ imm, Instr.nop ≠ .fsetef imm) :=
  ⟨next_of_check _ _ (by decide +kernel), by decide, by decide, by decide, by simp, by simp⟩

theorem witness_DrawsSpentByLencrAndFinitOnly :
    (∃ t, exec .lencr State.reset = .next t ∧ (t.draws == 1) = true) ∧
      (∃ t, exec .finit (withInput (hex "05030200010001") State.reset) = .next t ∧
        (t.draws == 0) = true) :=
  ⟨⟨_, rfl, rfl⟩, next_of_check _ _ (by decide +kernel)⟩

theorem witness_BytesAboveIlenHaveNoEffect :
    (∀ a < (withInput [1#8] State.reset).ilen,
        Memory.read [(0, 1#8), (1, 9#8)] a = (withInput [1#8] State.reset).ibuf.read a) ∧
      (∃ t, exec .crc8 (withInput [1#8] State.reset) = .next t ∧ (output t == [0x5E#8]) = true) :=
  ⟨by decide +kernel, next_of_check _ _ (by decide +kernel)⟩

theorem witness_StepsTakeActionsInIssueOrder :
    (withPort [.reset] State.reset).port = [.reset] ∧
      ((run [.load [1#8], .issue 0x00000001#32] (withPort [.reset] State.reset)).map
        fun r => (output r.1, r.2)) = some ([0x5E#8], [0#8]) := by decide +kernel

theorem witness_MovoiCompletes :
    (withZeroOutput 256 State.reset).olen ≤ 256 ∧
      statusAfter (exec .movoi (withZeroOutput 256 State.reset)) = some 0 ∧
      256 < (withZeroOutput 257 State.reset).olen ∧
      statusAfter (exec .movoi (withZeroOutput 257 State.reset)) = some 2 := by decide +kernel

theorem witness_CfgwCompletes :
    ((0x01#8 : Byte) = 0x00#8 ∨ (0x01#8 : Byte) = 0x01#8) ∧ 2 ≤ (0x02#8 : Byte).toNat ∧
      statusAfter (exec (.cfgw 0x01#8) State.reset) = some 0 ∧
      statusAfter (exec (.cfgw 0x02#8) State.reset) = some 8 := by decide +kernel

theorem witness_CrcDetectsAOneByteChange : (0x00#8 : Byte) ≠ 0x01#8 := by decide

theorem witness_LdecsCompletes :
    1 ≤ (withZeros 1 State.reset).ilen ∧ State.reset.ilen = 0 ∧
      statusAfter (exec .ldecs (withZeros 1 State.reset)) = some 0 ∧
      statusAfter (exec .ldecs State.reset) = some 2 := by decide +kernel

theorem witness_LencAndLdecComplete :
    (withZeros 256 State.reset).ilen ≤ 256 ∧
      statusAfter (exec (.lenc 0xFF#8) (withZeros 256 State.reset)) = some 0 := by decide +kernel

theorem witness_LencrCompletes :
    (withZeros 256 State.reset).ilen ≤ 256 ∧
      ∃ t, exec .lencr (withZeros 256 State.reset) = .next t ∧ (t.olen == 257) = true :=
  ⟨by decide, next_of_check _ _ (by decide +kernel)⟩

theorem witness_LegacyRoundTripsReturnTheInput :
    (withZeros 256 State.reset).ilen ≤ 256 ∧ (withZeros 255 State.reset).ilen ≤ 255 ∧
      (withZeros 256 State.reset).ilen = 256 := by decide

theorem witness_KloadAndKclrComplete :
    (withInput keyK State.reset).ilen = 16 ∧ (withZeros 17 State.reset).ilen ≠ 16 ∧
      statusAfter (exec .kload (withZeros 16 State.reset)) = some 0 ∧
      statusAfter (exec .kload (withZeros 17 State.reset)) = some 4 := by decide +kernel

theorem witness_AesencCompletes :
    (withZeros 256 (withKey State.reset)).kvalid = true ∧
      (withZeros 256 (withKey State.reset)).ilen ≤ 256 ∧ State.reset.kvalid = false := by decide

theorem witness_AesdecCompletes :
    (withInput (hex "95a3bd4703fde2b76397587b6ee44b7b") (withKey State.reset)).ilen ≤ 256 ∧
      cbcDec (input (withInput (hex "95a3bd4703fde2b76397587b6ee44b7b") (withKey State.reset)))
        (withKey State.reset).key = some (hex "05013f0202") ∧
      (withKey State.reset).ilen = 0 ∧ (withZeros 17 (withKey State.reset)).ilen % 16 ≠ 0 ∧
      cbcDec (input (withZeros 16 (withKey State.reset))) (withKey State.reset).key = none ∧
      State.reset.kvalid = false := by decide +kernel

theorem witness_CbcChainsFromTheKey :
    0 < ([] : List Byte).length / 16 + 1 ∧ 1 < (List.replicate 16 0#8).length / 16 + 1 := by decide

theorem witness_UnpadAcceptsExactlyPaddedStrings :
    16 ≤ (List.replicate 16 0x10#8).length ∧
      unpad (List.replicate 16 0x10#8) = some ([] : List Byte) ∧
      unpad (List.replicate 16 0x00#8) = none ∧ unpad (List.replicate 16 0x11#8) = none := by
  decide +kernel

theorem witness_AesCommandsRoundTrip :
    keyK.length = 16 ∧ (List.replicate 255 0#8).length ≤ 255 ∧
      (List.replicate 256 0#8).length = 256 := by decide +kernel

theorem witness_EveryProtocolTypeHasOneDialect :
    (∃ t, exec .fparse (withInput (hex "7f5a0141000081") State.reset) = .next t ∧
        (t.status == 0#8) = true) ∧
      (∃ t, exec .finit (withInput (hex "05030200010001") State.reset) = .next t ∧
        (t.status == 0#8) = true) :=
  ⟨next_of_check _ _ (by decide +kernel), next_of_check _ _ (by decide +kernel)⟩

/-- The shortest modern frame, protocolType 0 (F8), and one whose payload just fits. -/
theorem witness_FparseOfAModernFrameCompletes :
    ∃ s : State,
      (Claims.inByte s 2 = 0x00#8 ∨ 5 ≤ (Claims.inByte s 2).toNat) ∧ 13 ≤ s.ilen ∧
        (Claims.inByte s 11).toNat ≤ 127 ∧ 13 + (Claims.inByte s 11).toNat ≤ s.ilen ∧
        statusAfter (exec .fparse s) = some 0 :=
  ⟨withInput (hex "7f5a0000000000000000aa0064") State.reset, by decide +kernel⟩

/-- protocolType 5, and a payload of 127 bytes that just fits. -/
theorem witness_FparseOfAModernFrameCompletes_longest :
    ∃ s : State,
      5 ≤ (Claims.inByte s 2).toNat ∧ 13 ≤ s.ilen ∧ (Claims.inByte s 11).toNat ≤ 127 ∧
        13 + (Claims.inByte s 11).toNat = s.ilen ∧ statusAfter (exec .fparse s) = some 0 :=
  ⟨{ State.reset with ibuf := [(2, 5#8), (11, 127#8)], ilen := 140 }, by decide +kernel⟩

/-- protocolType 4 and the shortest frame; protocolType 1 and the longest payload. -/
theorem witness_FparseOfALegacyFrameCompletes :
    (∃ s : State, 1 ≤ (Claims.inByte s 2).toNat ∧ (Claims.inByte s 2).toNat ≤ 4 ∧ 7 ≤ s.ilen ∧
        (Claims.inByte s 5).toNat ≤ 127 ∧ 7 + (Claims.inByte s 5).toNat ≤ s.ilen ∧
        statusAfter (exec .fparse s) = some 0) ∧
      (∃ s : State, 1 ≤ (Claims.inByte s 2).toNat ∧ (Claims.inByte s 2).toNat ≤ 4 ∧
        7 ≤ s.ilen ∧ (Claims.inByte s 5).toNat ≤ 127 ∧
        7 + (Claims.inByte s 5).toNat ≤ s.ilen ∧ statusAfter (exec .fparse s) = some 0) :=
  ⟨⟨{ State.reset with ibuf := [(2, 4#8)], ilen := 7 }, by decide +kernel⟩,
    ⟨{ State.reset with ibuf := [(2, 1#8), (5, 127#8)], ilen := 134 }, by decide +kernel⟩⟩

/-- Each clause at its boundary: 6 bytes; a modern frame of 7 and of 12 bytes; modern lengths 128 and one too
long; the same for a legacy frame. -/
theorem witness_FparseErrorsDropTheFrame :
    statusAfter (exec .fparse (withZeros 6 State.reset)) = some 1 ∧
      statusAfter (exec .fparse (withZeros 7 State.reset)) = some 1 ∧
      statusAfter (exec .fparse (withZeros 12 State.reset)) = some 1 ∧
      statusAfter (exec .fparse { State.reset with ibuf := [(11, 128#8)], ilen := 256 }) = some 2 ∧
      statusAfter (exec .fparse { State.reset with ibuf := [(11, 1#8)], ilen := 13 }) = some 2 ∧
      statusAfter (exec .fparse { State.reset with ibuf := [(2, 4#8), (5, 128#8)], ilen := 256 }) =
        some 2 ∧
      statusAfter (exec .fparse { State.reset with ibuf := [(2, 1#8), (5, 1#8)], ilen := 7 }) =
        some 2 := by decide +kernel

/-- A PARSED modern frame without payload. -/
def parsedEmpty : FrameRegs := { parsedFixture with fplen := 0#8, fpay := [] }

/-- The frame of V1 with a CRC mismatch (F14). -/
def parsedBadCrc : FrameRegs := { parsedFixture with fcrcrx := 0xD7#8, fcrcok := false }

/-- The clauses of FdataCompletes: cached; legacy; empty modern; encrypted modern with the CRC ignored. -/
theorem witness_FdataCompletes_frames :
    FrameOk { parsedFixture with fdone := true } ∧ FrameOk parsedLegacy ∧ FrameOk parsedEmpty ∧
      FrameOk parsedBadCrc :=
  ⟨by decide +kernel, by decide +kernel, by decide +kernel, by decide +kernel⟩

/-- The other hypotheses of those clauses. -/
theorem witness_FdataCompletes :
    (parsedLegacy.fstate = .parsed ∧ parsedLegacy.fdone = false ∧ parsedLegacy.fcrcok = true ∧
        parsedLegacy.fleg = true) ∧
      (parsedEmpty.fstate = .parsed ∧ parsedEmpty.fdone = false ∧ parsedEmpty.fcrcok = true ∧
        parsedEmpty.fleg = false ∧ parsedEmpty.fplen = 0x00#8) ∧
      (parsedBadCrc.fstate = .parsed ∧ parsedBadCrc.fdone = false ∧ parsedBadCrc.fleg = false ∧
        parsedBadCrc.fplen ≠ 0x00#8 ∧
        (withKey State.reset).kvalid = true ∧
        ({ withKey State.reset with cfg := 0x01#8 } : State).cfg.getLsbD 0 = true ∧
        cbcDec parsedBadCrc.fpay (withKey State.reset).key = some (hex "05013f0202")) ∧
      shown (exec .fdata (withFrame parsedEmpty State.reset)) = some (0, []) := by decide +kernel

/-- The clauses of FdataErrors: no frame; CRC bad; no key; a payload that is not whole blocks. -/
theorem witness_FdataErrors :
    statusAfter (exec .fdata State.reset) = some 6 ∧
      statusAfter (exec .fdata (withFrame modernShell State.reset)) = some 6 ∧
      statusAfter (exec .fdata (withFrame { parsedFixture with fcrcok := false } State.reset)) =
        some 3 ∧
      statusAfter (exec .fdata (withFrame parsedFixture State.reset)) = some 6 ∧
      statusAfter (exec .fdata (withFrame { parsedFixture with fplen := 1#8, fpay := [0#8] }
        (withKey State.reset))) = some 5 := by decide +kernel

theorem witness_CachedPayloadSurvives :
    FrameOk { parsedFixture with fdone := true, fplain := [7#8] } ∧
      (∀ a ∈ [HostAction.issue 0x00000021#32, .load [1#8], .issue 0x00000034#32],
        a ≠ .reset ∧ a ≠ .issue (encode .fparse) ∧ a ≠ .issue (encode .finit)) ∧
      (run [.issue 0x00000021#32, .load [1#8], .issue 0x00000034#32]
        (withFrame { parsedFixture with fdone := true, fplain := [7#8] } State.reset)).map
        (fun r => r.2) = some [0#8, 0#8] := by decide +kernel

/-- ILEN 7 with a modern and with a legacy protocolType; ILEN 6 and 8. -/
theorem witness_FinitCompletes :
    (withZeros 7 State.reset).ilen = 7 ∧ Claims.inByte (withZeros 7 State.reset) 0 = 0x00#8 ∧
      statusAfter (exec .finit (withZeros 7 State.reset)) = some 0 ∧
      drawsEncryptFlag Config.params 0#8 = false ∧ drawsEncryptFlag Config.params 5#8 = false ∧
      statusAfter (exec .finit (withZeros 6 State.reset)) = some 2 ∧
      statusAfter (exec .finit (withZeros 8 State.reset)) = some 2 := by decide +kernel

theorem witness_FsetcmdAndFsetefComplete :
    (withFrame modernShell State.reset).frame.fstate ≠ .empty ∧
      (withFrame parsedLegacy State.reset).frame.fstate ≠ .empty ∧
      State.reset.frame.fstate = .empty := by decide +kernel

/-- Modern: no byte without a key, 111 bytes with one; legacy: 127 bytes. -/
theorem witness_FbuildCompletes :
    modernShell.fstate ≠ .empty ∧ modernShell.fcmdv = true ∧ modernShell.fleg = false ∧
      State.reset.ilen = 0 ∧ (withKey State.reset).kvalid = true ∧
      (withZeros 111 (withKey State.reset)).ilen ≤ 111 ∧
      legacyShell.fstate ≠ .empty ∧ legacyShell.fcmdv = true ∧ legacyShell.fleg = true ∧
      statusAfter (exec .fbuild (withZeros 127 (withFrame legacyShell State.reset))) = some 0 := by
  decide +kernel

/-- 112 modern bytes with a key, 128 legacy bytes; the other clauses are test_fbuild_other_paths. -/
theorem witness_FbuildErrors :
    112 ≤ (withZeros 112 (withKey State.reset)).ilen ∧
      1 ≤ (withZeros 1 State.reset).ilen ∧ State.reset.kvalid = false ∧
      statusAfter (exec .fbuild (withZeros 1 (withFrame modernShell State.reset))) = some 7 ∧
      statusAfter (exec .fbuild (withZeros 128 (withFrame legacyShell State.reset))) = some 2 := by
  decide +kernel

/-- A modern frame without payload and a legacy frame of 127 payload bytes. -/
theorem witness_BuiltFramesFitTheirLengthByte :
    (∃ t, exec .fbuild (withFrame modernShell State.reset) = .next t ∧
        (t.status == 0#8 && t.olen == 13) = true) ∧
      (∃ t, exec .fbuild (withZeros 127 (withFrame legacyShell State.reset)) = .next t ∧
        (t.status == 0#8 && t.olen == 134) = true) :=
  ⟨next_of_check _ _ (by decide +kernel), next_of_check _ _ (by decide +kernel)⟩

/-- 111 bytes for a modern descriptor, 127 bytes for a legacy one. -/
theorem witness_EnvelopeRoundTrip :
    keyK.length = 16 ∧ (hex "05030200010001").length = 7 ∧ (hex "03000000000000").length = 7 ∧
      isLegacy (byteAt (hex "05030200010001") 0) = false ∧
      isLegacy (byteAt (hex "03000000000000") 0) = true ∧
      (List.replicate 111 0#8).length ≤ 111 ∧ (List.replicate 127 0#8).length ≤ 127 := by
  decide +kernel

theorem witness_AssembledLinesAreLegalWords :
    takesImmediate (Instr.opcode .nop) = false ∧ takesImmediate (Instr.opcode (.lenc 0xFF#8)) = true ∧
      ';' ∉ "STRICT ".toList ∧
      assembleLine "STRICT ; CFGW 0x00".toList = some [.issue 0x00000040#32] ∧
      assembleSource .strict = some [.issue 0x00000040#32] ∧
      HostAction.issue 0x00000040#32 ∈ [HostAction.issue 0x00000040#32] := by decide +kernel

theorem witness_PseudoInstructionsExpand :
    keyK.length = 16 ∧ (List.replicate 256 0#8).length ≤ 256 ∧
      assembleSource (.parse (List.replicate 257 0#8)) = none := by decide +kernel

/-- The first clause on a command; words that are neither LENCR nor FINIT, one of them illegal. -/
theorem witness_StepIsTheBlocksStepAtItsArguments :
    (∃ t, issueWord 0x00000001#32 State.reset = .next t ∧ (t.status == 0#8) = true) ∧
      decode 0x00000001#32 = .ok .crc8 ∧ decode 0x00000100#32 = .error .strayImmediate :=
  ⟨next_of_check _ _ (by decide +kernel), rfl, rfl⟩

theorem witness_BlockStepKeepsTheInvariants :
    Invariants largerParams (withZeroOutput 257 State.reset) ∧
      ∃ t, commandWord largerParams 0 0x00000003#32 (withZeroOutput 257 State.reset) = .next t ∧
        (t.status == 0#8 && t.ilen == 257) = true :=
  ⟨by decide +kernel, next_of_check _ _ (by decide +kernel)⟩

/-- L10 with the draw 0x11, and F29 with LEGACY_V2_TYPES = (2) and the draw 0x33, as arguments of the step. -/
theorem test_block_step_takes_its_arguments :
    shown (commandWord Config.params 0x10 0x00000011#32 (withInput (hex "0102030405") State.reset)) =
        some (0, hex "2f2c2d2a2b11") ∧
      (nextState (commandWord { Config.params with legacyV2 := fun i => i == 1 } 0x32 0x00000032#32
        (withInput (hex "02000000000000") State.reset))).map
        (fun t => (t.frame.fleg, t.frame.fef)) = some (true, 0x33#8) := by decide +kernel

end Sys2Proof.Tests
end

