-- ==== Sys2Proof/Proofs/ReadValue.lean ====
section
/-!
What READ gives, register by register (10_state.md R19; 70_reset_and_hazards.md R178). The lemmas are for all
parameters; the obligation takes them at `Config.params`.
-/
namespace Sys2Proof.Machine

/-! ## The byte registers -/

theorem Memory.getElem?_slice (m : Memory) (a n i : Nat) (h : i < n) :
    (m.slice a n)[i]? = some (m.read (a + i)) := by
  rw [List.getElem?_eq_getElem (by simpa using h), Memory.getElem_slice]

/-- A buffer read whole is its bytes in order (20_memory.md R48). -/
theorem Memory.slice_whole (m : Memory) (cap : Nat) :
    (m.slice 0 cap).length = cap ∧ ∀ a, a < cap → (m.slice 0 cap)[a]? = some (m.read a) :=
  ⟨m.length_slice 0 cap, fun a ha => by rw [m.getElem?_slice 0 cap a ha, Nat.zero_add]⟩

theorem readReg_ibuf (c : Params) (s : State) :
    ∃ b, readReg c .ibuf s = .bytes b ∧ b.length = c.ibufCap ∧
      ∀ a, a < c.ibufCap → b[a]? = some (s.ibuf.read a) :=
  ⟨_, rfl, s.ibuf.slice_whole c.ibufCap⟩

theorem readReg_obuf (c : Params) (s : State) :
    ∃ b, readReg c .obuf s = .bytes b ∧ b.length = c.obufCap ∧
      ∀ a, a < c.obufCap → b[a]? = some (s.obuf.read a) :=
  ⟨_, rfl, s.obuf.slice_whole c.obufCap⟩

theorem readReg_key (c : Params) (s : State) :
    ∃ b, readReg c .key s = .bytes b ∧ b.length = 16 ∧ Block.ofBytes b = s.key :=
  ⟨_, rfl, Block.length_toBytes s.key, Block.ofBytes_toBytes s.key⟩

/-! ## The length registers -/

theorem readReg_ilen_nine (c : Params) (s : State) (h : c.ibufCap < 512) :
    readReg c .ilen s = .bits 9 s.ilen :=
  congrArg (RegValue.bits · s.ilen) (lengthBits_eq_nine c.ibufCap h)

theorem readReg_olen_nine (c : Params) (s : State) (h : c.obufCap < 512) :
    readReg c .olen s = .bits 9 s.olen :=
  congrArg (RegValue.bits · s.olen) (lengthBits_eq_nine c.obufCap h)

/-! ## The flags and FSTATE -/

/-- A flag is read as a bit, 1 where it is set. -/
theorem bits_one_toNat (b : Bool) : RegValue.bits 1 b.toNat = .bits 1 (if b then 1 else 0) := by
  cases b <;> rfl

theorem readReg_fstate (c : Params) (s : State) (f : FrameState) (h : s.frame.fstate = f) :
    readReg c .fstate s = .bits 2 f.code :=
  h ▸ rfl

/-- FSTATE's code fits its two bits (10_state.md R26). -/
theorem FrameState.code_lt (f : FrameState) : f.code < 2 ^ 2 := by
  cases f <;> decide

/-! ## The bounds -/

/-- A number READ gives fits the register's width. Only ILEN and OLEN need the capacities kept
(10_state.md R39); every other number comes from a type of that width. -/
theorem readReg_bits_lt (c : Params) (s : State) (hilen : s.ilen ≤ c.ibufCap)
    (holen : s.olen ≤ c.obufCap) (r : RegName) (w v : Nat) (h : readReg c r s = .bits w v) :
    v < 2 ^ w := by
  cases r with
  | ilen => cases h; exact lt_two_pow_lengthBits _ _ hilen
  | olen => cases h; exact lt_two_pow_lengthBits _ _ holen
  | fstate => cases h; exact FrameState.code_lt _
  | kvalid | fleg | fcmdv | fcrcok | fdone => cases h; exact Bool.toNat_lt _
  | cfg | status | erracc | fpt | fpv | fscene | fgid | foid | fcmd | fef | fplen | fcrcrx
  | fcrccalc | flvar => cases h; exact BitVec.isLt _
  | ibuf | obuf | key | fhdr | fpay | fplain => cases h

/-- The frame invariants bound FPAY and FPLAIN (10_state.md R33, R36). -/
theorem FrameOk.length_le (f : FrameRegs) (h : FrameOk f) :
    f.fpay.length ≤ 127 ∧ f.fplain.length ≤ 127 := by
  obtain ⟨_, _, _, hfpay, hfplain⟩ := h
  exact ⟨hfpay, hfplain⟩

/-- Settles O9, from one lemma for each kind of register: bytes, lengths, flags and FSTATE. Where a clause is
`rfl` it is that register's row of R19 as `readReg` writes it. -/
theorem readValueFitsTheRegister : Obligations.ReadValueFitsTheRegister := by
  intro s
  -- The buffers and their lengths.
  refine ⟨readReg_ibuf Config.params s, readReg_ilen_nine Config.params s (by decide),
    readReg_obuf Config.params s, readReg_olen_nine Config.params s (by decide), ?_⟩
  -- KEY, KVALID, CFG, STATUS, ERRACC.
  refine ⟨readReg_key Config.params s, bits_one_toNat _, rfl, rfl, rfl, ?_⟩
  -- FSTATE, its three codes.
  refine ⟨readReg_fstate _ s .empty, readReg_fstate _ s .parsed, readReg_fstate _ s .shell, ?_⟩
  -- FLEG to FEF.
  refine ⟨bits_one_toNat _, rfl, rfl, rfl, rfl, rfl, rfl, rfl, bits_one_toNat _, rfl, ?_⟩
  -- FPLEN to FPLAIN.
  refine ⟨rfl, rfl, rfl, rfl, bits_one_toNat _, rfl, bits_one_toNat _, rfl, ?_⟩
  -- Any other capacities, and the bounds.
  exact ⟨fun c => readReg_ilen_nine c s, fun c => readReg_olen_nine c s,
    fun c => readReg_bits_lt c s, FrameOk.length_le s.frame⟩

end Sys2Proof.Machine
end

section
/-!
The model's word, host action and run as the block's at their arguments (10_state.md R41): `issueWord`, `perform`
and `run` at `Config.params` and the next draws; and what the draw matters to.
-/
namespace Sys2Proof.Machine

/-- Issuing a word is the block's command word at `Config.params` and the next draw. -/
theorem issueWord_eq_commandWord (cw : CommandWord) (s : State) :
    issueWord cw s = commandWord Config.params (nextDraw s) cw s := by
  unfold issueWord commandWord
  cases decode cw with
  | ok i => exact exec_eq_command i s
  | error e => rfl

/-- A host action is the block's action at `Config.params` and the next draw. -/
theorem perform_eq_blockAction (a : HostAction) (s : State) :
    perform a s = blockAction Config.params (nextDraw s) a s := by
  cases a with
  | load bytes => rfl
  | issue cw => exact issueWord_eq_commandWord cw s
  | read r => rfl
  | reset => rfl

/-- Everything a command word can do, with the parameters and the draw given. -/
theorem commandWord_cases {c : Params} {draw : Fin 127} {cw : CommandWord} {s t : State}
    (h : commandWord c draw cw s = .next t) :
    (∃ i, decode cw = .ok i ∧ After c i s t) ∨
      ((∃ e, decode cw = .error e) ∧ t = raise .illegalCommand s) := by
  unfold commandWord at h
  cases hd : decode cw with
  | ok i =>
    rw [hd] at h
    exact .inl ⟨i, rfl, command_cases c draw i s t h⟩
  | error e =>
    rw [hd] at h
    cases h
    exact .inr ⟨⟨e, rfl⟩, rfl⟩

/-- The draw matters to LENCR and FINIT only. -/
theorem command_draw (c : Params) (d d' : Fin 127) (i : Instr) (s : State) (hlencr : i ≠ .lencr)
    (hfinit : i ≠ .finit) : command c d i s = command c d' i s := by
  cases i with
  | lencr => exact absurd rfl hlencr
  | finit => exact absurd rfl hfinit
  | _ => rfl

theorem blockStep_draw (c : Params) (d d' : Fin 127) (cw : CommandWord) (s : State)
    (hlencr : decode cw ≠ .ok .lencr) (hfinit : decode cw ≠ .ok .finit) :
    blockStep c d cw s = blockStep c d' cw s := by
  have hword : commandWord c d cw s = commandWord c d' cw s := by
    unfold commandWord
    cases hd : decode cw with
    | ok i =>
      exact command_draw c d d' i s (fun hi => hlencr (hi ▸ hd)) fun hi => hfinit (hi ▸ hd)
    | error e => rfl
  rw [blockStep, blockStep, hword]

/-- A run is the block's run: each action is the block's, with the next draw. -/
theorem run_eq_blockRun (actions : List HostAction) (s : State) :
    run actions s = blockRun Config.params Config.seedDraw actions s := by
  induction actions generalizing s with
  | nil => rfl
  | cons a rest ih =>
    have ha : perform a s = blockAction Config.params (Config.seedDraw s.draws) a s :=
      perform_eq_blockAction a s
    rw [run, blockRun, ha]
    cases blockAction Config.params (Config.seedDraw s.draws) a s with
    | next t => simp only [ih t]
    | fault f => rfl
    | refused r => rfl

/-- Settles O59, clause by clause. -/
theorem stepIsTheBlocksStepAtItsArguments : Obligations.StepIsTheBlocksStepAtItsArguments := by
  refine ⟨fun cw s t => ?_, run_eq_blockRun, blockStep_draw⟩
  rw [issueWord_eq_commandWord, blockStep_eq_next]
  exact (and_iff_left rfl).symm

end Sys2Proof.Machine
end

section
/-!
The LOAD action: what it writes, and when it is refused (10_state.md R20; 70_reset_and_hazards.md R178).
-/
namespace Sys2Proof.Machine

open Sys2Proof.Claims

/-- Everything a LOAD can do, when it is not refused. -/
theorem hostLoad_eq_next (c : Params) (bytes : List Byte) (s t : State) :
    hostLoad c bytes s = .next t ↔ bytes.length ≤ c.ibufCap ∧ t = taken bytes s := by
  have hset : setInput c bytes s = some t ↔ bytes.length ≤ c.ibufCap ∧ t = taken bytes s :=
    setInput_eq_some c bytes s t
  rw [← hset, hostLoad]
  cases setInput c bytes s <;> simp

/-- A LOAD of a string longer than IBUF_CAP is refused. -/
theorem hostLoad_refused (c : Params) (bytes : List Byte) (s : State)
    (h : c.ibufCap < bytes.length) : hostLoad c bytes s = .refused .loadTooLong := by
  rw [hostLoad, (setInput_eq_none c bytes s).2 h]

/-- What LOAD does to the input: it is the string, and IBUF above it stays (10_state.md R20; LOG 10). -/
theorem input_taken (bytes : List Byte) (s : State) :
    input (taken bytes s) = bytes ∧
      ∀ a, bytes.length ≤ a → (taken bytes s).ibuf.read a = s.ibuf.read a :=
  ⟨Memory.slice_store _ _ _, fun a ha => Memory.read_store_above _ _ _ _ (by simpa using ha)⟩

/-- Settles O7: the step is the LOAD, which takes the string or is refused. -/
theorem loadReplacesTheInput : Obligations.LoadReplacesTheInput := by
  intro s bytes rest hport
  have hstep : step s = hostLoad Config.params bytes { s with port := rest } :=
    step_of_port_cons s _ rest hport
  rw [hstep]
  refine ⟨fun hfits => ?_, hostLoad_refused Config.params bytes _⟩
  obtain ⟨hin, habove⟩ := input_taken bytes { s with port := rest }
  exact ⟨_, (hostLoad_eq_next _ _ _ _).2 ⟨hfits, rfl⟩, hin, rfl, habove, ⟨rfl, fun _ => rfl⟩,
    ⟨rfl, rfl⟩, rfl, rfl, rfl, rfl, rfl, rfl, rfl⟩

end Sys2Proof.Machine
end

section
/-!
How a command ends and how ERRACC accumulates (10_state.md R25; 60_exceptions.md R146, R148). The lemmas on
`After` and on a command word are for all parameters and every draw.
-/
namespace Sys2Proof.Machine

open Sys2Proof.Claims

/-! ## The two ends of a command -/

/-- The command ended well or with one of the eight error codes (60_exceptions.md R146). -/
def Ends (s t : State) : Prop := EndsOk s t ∨ ∃ e : ErrorCode, EndsInError e.number s t

theorem ends_raise (e : ErrorCode) (s : State) : Ends s (raise e s) := .inr ⟨e, rfl, rfl⟩

theorem After.ends {c : Params} {i : Instr} {s t : State} (h : After c i s t) : Ends s t := by
  cases h with
  | error e => exact ends_raise e s
  | dropped e => exact ends_raise e (dropFrame s)
  | _ => exact .inl ⟨rfl, rfl⟩

/-- Every command word, legal or not, ends well or with one error code. -/
theorem commandWord_ends {c : Params} {draw : Fin 127} {cw : CommandWord} {s t : State}
    (h : commandWord c draw cw s = .next t) : Ends s t := by
  obtain ⟨i, -, hi⟩ | ⟨-, rfl⟩ := commandWord_cases h
  · exact hi.ends
  · exact ends_raise _ s

/-! ## ERRACC's bits (10_state.md R25) -/

theorem ErrorCode.status_toNat (e : ErrorCode) : e.status.toNat = e.number := by
  cases e <;> rfl

/-- An error code's bit is one of the bits 8:1. -/
theorem ErrorCode.getLsbD_bit_reserved (e : ErrorCode) (k : Nat) (hk : k = 0 ∨ 9 ≤ k) :
    e.bit.getLsbD k = false := by
  have hb := e.number_bounds
  have hne : k - e.number ≠ 0 ∨ k < e.number := by omega
  rw [ErrorCode.bit, BitVec.getLsbD_shiftLeft]
  rcases hne with hne | hlt
  · simp [BitVec.getLsbD_one, hne]
  · simp [hlt]

/-- STATUS in range, and ERRACC with exactly the bit of an error code it shows. -/
theorem Ends.status_erracc {s t : State} (h : Ends s t) :
    t.status.toNat ≤ 8 ∧
      t.erracc = s.erracc ||| (if t.status = 0x00#8 then 0x0000#16 else 1#16 <<< t.status.toNat) := by
  obtain ⟨hst, herr⟩ | ⟨e, hst, herr⟩ := h
  · simp [hst, herr]
  · have hst : t.status = e.status := hst
    have hne : e.status ≠ 0x00#8 := e.status_ne_ok
    rw [hst, if_neg hne, e.status_toNat]
    exact ⟨e.number_bounds.2, herr⟩

/-- No end of a command clears a bit of ERRACC. -/
theorem Ends.erracc_keeps {s t : State} (h : Ends s t) (k : Nat) (hk : s.erracc.getLsbD k = true) :
    t.erracc.getLsbD k = true := by
  obtain ⟨-, herr⟩ | ⟨e, -, herr⟩ := h <;> simp [herr, hk]

/-- No end of a command writes a reserved bit of ERRACC. -/
theorem Ends.erracc_reserved {s t : State} (h : Ends s t) (k : Nat) (hk : k = 0 ∨ 9 ≤ k) :
    t.erracc.getLsbD k = s.erracc.getLsbD k := by
  obtain ⟨-, herr⟩ | ⟨e, -, herr⟩ := h
  · rw [herr]
  · have hbit : (1#16 <<< e.number).getLsbD k = false := e.getLsbD_bit_reserved k hk
    rw [herr, BitVec.getLsbD_or, hbit, Bool.or_false]

/-! ## The host's other actions -/

/-- An action that is neither a command word nor RESET leaves ERRACC alone. -/
theorem erracc_of_perform_of_not_isCommand {a : HostAction} {s t : State} (hr : a ≠ .reset)
    (hc : isCommand a = false) (h : perform a s = .next t) : t.erracc = s.erracc := by
  cases a with
  | load bytes =>
    obtain ⟨-, rfl⟩ := (hostLoad_eq_next _ _ _ _).1 h
    rfl
  | issue cw => cases hc
  | read r =>
    cases h
    rfl
  | reset => exact absurd rfl hr

theorem issueWord_ends {cw : CommandWord} {s t : State} (h : issueWord cw s = .next t) : Ends s t :=
  commandWord_ends (issueWord_eq_commandWord cw s ▸ h)

/-- Settles O17: each clause is one property of `Ends` for a command word, and for the other actions ERRACC
is left alone. -/
theorem erraccAccumulatesTheErrorCodes : Obligations.ErraccAccumulatesTheErrorCodes := by
  refine ⟨fun cw s t h => (issueWord_ends h).status_erracc, fun a s t hr h => ?_, fun s t h => ?_⟩
  · by_cases hc : isCommand a = false
    · have herr := erracc_of_perform_of_not_isCommand hr hc h
      exact ⟨fun _ => herr, fun k hk => herr ▸ hk, fun k _ => herr ▸ rfl⟩
    · cases a with
      | issue cw =>
        have hends : Ends s t := issueWord_ends h
        exact ⟨fun hc' => absurd hc' hc, hends.erracc_keeps, hends.erracc_reserved⟩
      | load _ | read _ | reset => exact absurd rfl hc
  · cases h
    rfl

end Sys2Proof.Machine
end

section
/-!
STATUS is not sticky: no command depends on the STATUS before it (10_state.md R24).
-/
namespace Sys2Proof.Machine

/-- The state with another STATUS. -/
def setStatus (v : BitVec 8) (s : State) : State := { s with status := v }

/-! The other registers, and what is computed from them. -/

@[simp] theorem setStatus_ibuf (v : BitVec 8) (s : State) : (setStatus v s).ibuf = s.ibuf := rfl
@[simp] theorem setStatus_ilen (v : BitVec 8) (s : State) : (setStatus v s).ilen = s.ilen := rfl
@[simp] theorem setStatus_key (v : BitVec 8) (s : State) : (setStatus v s).key = s.key := rfl
@[simp] theorem setStatus_kvalid (v : BitVec 8) (s : State) : (setStatus v s).kvalid = s.kvalid := rfl
@[simp] theorem setStatus_frame (v : BitVec 8) (s : State) : (setStatus v s).frame = s.frame := rfl
@[simp] theorem input_setStatus (v : BitVec 8) (s : State) : input (setStatus v s) = input s := rfl
@[simp] theorem inputSlice_setStatus (v : BitVec 8) (s : State) (a n : Nat) :
    inputSlice (setStatus v s) a n = inputSlice s a n := rfl
@[simp] theorem crcOk_setStatus (v : BitVec 8) (s : State) : crcOk (setStatus v s) = crcOk s := rfl
@[simp] theorem decodePayload_setStatus (v : BitVec 8) (s : State) :
    decodePayload (setStatus v s) = decodePayload s := rfl
@[simp] theorem frameBody_setStatus (v : BitVec 8) (s : State) :
    frameBody (setStatus v s) = frameBody s := rfl

/-! An update of another register commutes with one of STATUS. -/

@[simp] theorem setFrame_setStatus (f : FrameRegs) (v : BitVec 8) (s : State) :
    setFrame f (setStatus v s) = setStatus v (setFrame f s) := rfl
@[simp] theorem dropFrame_setStatus (v : BitVec 8) (s : State) :
    dropFrame (setStatus v s) = setStatus v (dropFrame s) := rfl
@[simp] theorem cachePlain_setStatus (p : List Byte) (v : BitVec 8) (s : State) :
    cachePlain p (setStatus v s) = setStatus v (cachePlain p s) := rfl
@[simp] theorem setCommandType_setStatus (cmd : Byte) (v : BitVec 8) (s : State) :
    setCommandType cmd (setStatus v s) = setStatus v (setCommandType cmd s) := rfl
@[simp] theorem setEncryptFlag_setStatus (ef : Byte) (v : BitVec 8) (s : State) :
    setEncryptFlag ef (setStatus v s) = setStatus v (setEncryptFlag ef s) := rfl
@[simp] theorem setKey_setStatus (k : Block) (b : Bool) (v : BitVec 8) (s : State) :
    setKey k b (setStatus v s) = setStatus v (setKey k b s) := rfl
@[simp] theorem setConfig_setStatus (image : Byte) (v : BitVec 8) (s : State) :
    setConfig image (setStatus v s) = setStatus v (setConfig image s) := rfl
@[simp] theorem consumeDraw_setStatus (v : BitVec 8) (s : State) :
    consumeDraw (setStatus v s) = setStatus v (consumeDraw s) := rfl

/-! Every end of a command overwrites STATUS. -/

@[simp] theorem finish_setStatus (v : BitVec 8) (s : State) : finish (setStatus v s) = finish s := rfl
@[simp] theorem raise_setStatus (e : ErrorCode) (v : BitVec 8) (s : State) :
    raise e (setStatus v s) = raise e s := rfl
@[simp] theorem finishWith_setStatus (c : Params) (bytes : List Byte) (v : BitVec 8) (s : State) :
    finishWith c bytes (setStatus v s) = finishWith c bytes s := by
  by_cases h : bytes.length ≤ c.obufCap <;> simp [finishWith, setOutput, setStatus, finish, h]

theorem movoiWith_setStatus (c : Params) (v : BitVec 8) (s : State) :
    movoiWith c (setStatus v s) = movoiWith c s := by
  have hout : output (setStatus v s) = output s := rfl
  by_cases h : s.olen ≤ c.ibufCap
  · simp only [movoiWith, setInput, hout, length_output, if_pos h]
    rfl
  · simp [movoiWith, setInput, hout, h]

theorem finitWith_setStatus (c : Params) (draw : Fin 127) (v : BitVec 8) (s : State) :
    finitWith c draw (setStatus v s) = finitWith c draw s := by
  by_cases h7 : s.ilen = 7
  · cases hd : drawsEncryptFlag c (byteAt (input s) 0) <;> simp [finitWith, h7, hd]
  · simp [finitWith, h7]

/-- What a command does from a state does not depend on the STATUS there: no operand and no check reads it, and
every end of the command overwrites it. -/
theorem command_setStatus (c : Params) (draw : Fin 127) (i : Instr) (v : BitVec 8) (s : State) :
    command c draw i (setStatus v s) = command c draw i s := by
  cases i with
  | nop | kclr => rfl
  | crc8 | crclut imm | lenc imm | ldec imm => exact finishWith_setStatus c _ v s
  | lencr => exact finishWith_setStatus c _ v (consumeDraw s)
  | movoi => exact movoiWith_setStatus c v s
  | ldecs => simp [command, ldecsWith]
  | kload => by_cases h : s.ilen = 16 <;> simp [command, execKload, h]
  | aesenc => simp [command, aesencWith]
  | aesdec => simp [command, aesdecWith]
  | fparse => simp [command, fparseWith]
  | fdata => simp [command, fdataWith]
  | finit => exact finitWith_setStatus c draw v s
  | fsetcmd imm => by_cases h : s.frame.fstate = .empty <;> simp [command, execFsetcmd, h]
  | fsetef imm => by_cases h : s.frame.fstate = .empty <;> simp [command, execFsetef, h]
  | fbuild => simp [command, fbuildWith]
  | cfgw imm => simp [command, execCfgw]

/-- Settles O19, from `command_setStatus`; an illegal word ends in an error, which overwrites STATUS. -/
theorem statusIsNotSticky : Obligations.StatusIsNotSticky := by
  intro cw s old
  rw [issueWord_eq_commandWord, issueWord_eq_commandWord, commandWord, commandWord]
  cases decode cw with
  | ok i => exact command_setStatus Config.params (nextDraw s) i old s
  | error e => rfl

end Sys2Proof.Machine
end

section
/-!
Which registers a command can write (10_state.md R19, column "written by"), from `exec_cases`.
-/
namespace Sys2Proof.Machine

open Sys2Proof.Claims

/-! ## The registers outside the frame unit -/

/-- IBUF and ILEN are written by MOVOI only. -/
theorem After.keepsInput {c : Params} {i : Instr} {s t : State} (h : After c i s t)
    (hi : i ≠ .movoi) : KeepsInput s t := by
  cases h with
  | moved _ h => exact absurd h hi
  | _ => exact ⟨rfl, fun _ => rfl⟩

/-- OBUF and OLEN are written by the commands with an output only. -/
theorem After.keepsOutput {c : Params} {i : Instr} {s t : State} (h : After c i s t)
    (hi : ¬ mayWriteOutput i) : KeepsOutput s t := by
  cases h with
  | output bytes hl h =>
    refine absurd (h.imp_left fun hmem => ?_) hi
    simp only [List.mem_cons, List.not_mem_nil, or_false] at hmem ⊢
    tauto
  | seeded bytes hl h => exact absurd (.inl (by simp [h])) hi
  | cached _ h => exact absurd (.inl (by simp [h])) hi
  | decoded _ _ h => exact absurd (.inl (by simp [h])) hi
  | _ => exact ⟨rfl, fun _ => rfl⟩

/-- KEY and KVALID are written by KLOAD and KCLR only. -/
theorem After.keepsKey {c : Params} {i : Instr} {s t : State} (h : After c i s t)
    (hi : i ≠ .kload ∧ i ≠ .kclr) : KeepsKey s t := by
  cases h with
  | keySet _ _ h => exact absurd h (not_or.2 hi)
  | _ => exact ⟨rfl, rfl⟩

/-- CFG is written by CFGW only. -/
theorem After.keepsCfg {c : Params} {i : Instr} {s t : State} (h : After c i s t)
    (hi : ∀ imm, i ≠ .cfgw imm) : t.cfg = s.cfg := by
  cases h with
  | configured imm h => exact absurd h (hi imm)
  | _ => rfl

/-- No command touches the host's side. -/
theorem After.keepsHostSide {c : Params} {i : Instr} {s t : State} (h : After c i s t) :
    KeepsHostSide s t := by
  cases h <;> exact ⟨rfl, rfl⟩

/-- Settles O20, register by register. -/
theorem registersWrittenByTheirCommandsOnly : Obligations.RegistersWrittenByTheirCommandsOnly := by
  intro i s t h
  have hafter := exec_cases i s t h
  exact ⟨hafter.keepsInput, hafter.keepsOutput, hafter.keepsKey, hafter.keepsCfg,
    hafter.keepsHostSide⟩

/-! ## The frame registers -/

/-- What a command other than FPARSE and FINIT does to the frame registers: nothing, or the write of FDATA,
FSETCMD or FSETEF. -/
theorem After.frame_cases {c : Params} {i : Instr} {s t : State} (h : After c i s t)
    (hparse : i ≠ .fparse) (hinit : i ≠ .finit) :
    t.frame = s.frame ∨
      (∃ p, i = .fdata ∧ t.frame = (cachePlain p s).frame) ∨
      (∃ cmd, i = .fsetcmd cmd ∧ t.frame = (setCommandType cmd s).frame) ∨
      ∃ ef, i = .fsetef ef ∧ t.frame = (setEncryptFlag ef s).frame := by
  cases h with
  | dropped _ h => exact absurd h hparse
  | parsed _ h => exact absurd h hparse
  | drawnShell _ h => exact absurd h hinit
  | shell h => exact absurd h hinit
  | decoded p _ h => exact .inr (.inl ⟨p, h, rfl⟩)
  | commandSet cmd h => exact .inr (.inr (.inl ⟨cmd, h, rfl⟩))
  | flagSet ef h => exact .inr (.inr (.inr ⟨ef, h, rfl⟩))
  | _ => exact .inl rfl

/-- Settles O21: each of the three writes of `After.frame_cases` is of the registers that name its command, and
keeps the others. -/
theorem frameRegistersWrittenByTheirCommandsOnly :
    Obligations.FrameRegistersWrittenByTheirCommandsOnly := by
  intro i s t h hparse hinit
  obtain hf | ⟨p, rfl, hf⟩ | ⟨cmd, rfl, hf⟩ | ⟨ef, rfl, hf⟩ :=
    (exec_cases i s t h).frame_cases hparse hinit
  all_goals simp [hf]

end Sys2Proof.Machine
end

section
/-!
The invariants of 10_state.md R39: each of the four groups is kept by a command, by cases of `After`, and then
by a host action and by a step. The lemmas are for all parameters and every draw.
-/
namespace Sys2Proof.Machine

/-! ## The buffers -/

theorem emitted_buffersOk {c : Params} {bytes : List Byte} {s : State} (hs : BuffersOk c s)
    (hl : bytes.length ≤ c.obufCap) : BuffersOk c (emitted bytes s) := by
  obtain ⟨hilen, -, hiwf, hiin, howf, hoin⟩ := hs
  exact ⟨hilen, hl, hiwf, hiin, Memory.wf_store _ _ _ howf,
    Memory.within_store _ _ _ _ hoin (by simpa using hl)⟩

theorem taken_buffersOk {c : Params} {bytes : List Byte} {s : State} (hs : BuffersOk c s)
    (hl : bytes.length ≤ c.ibufCap) : BuffersOk c (taken bytes s) := by
  obtain ⟨-, holen, hiwf, hiin, howf, hoin⟩ := hs
  exact ⟨hl, holen, Memory.wf_store _ _ _ hiwf,
    Memory.within_store _ _ _ _ hiin (by simpa using hl), howf, hoin⟩

theorem After.buffersOk {c : Params} {i : Instr} {s t : State} (h : After c i s t)
    (hs : BuffersOk c s) : BuffersOk c t := by
  cases h with
  | output bytes hl => exact emitted_buffersOk hs hl
  | seeded bytes hl => exact emitted_buffersOk (s := consumeDraw s) hs hl
  | cached hl => exact emitted_buffersOk hs hl
  | decoded p hl => exact emitted_buffersOk (s := cachePlain p s) hs hl
  | moved hl => exact taken_buffersOk hs hl
  | _ => exact hs

/-! ## The frame -/

/-- A byte read as negative is one of 0x80 and above (00_scope.md R12). -/
theorem sext8_neg_iff (v : Byte) : sext8 v < 0 ↔ 128 ≤ v.toNat := by
  have hv := v.isLt
  rw [sext8, BitVec.toInt_eq_toNat_cond]
  split <;> omega

@[simp] theorem length_byteRange (f : List Byte) (i j : Nat) :
    (byteRange f i j).length = min (j - i) (f.length - i) := by
  simp [byteRange]

/-- The two length checks a raw frame has passed (43_frame.md R124; 30_encoding.md R71). -/
theorem parseFrame_ok_bounds {f : List Byte} {h : FrameHeader} (hf : parseFrame f = .ok h) :
    h.len.toNat ≤ 127 ∧ h.hl + h.len.toNat + 1 ≤ f.length := by
  unfold parseFrame at hf
  split at hf
  · cases hf
  · split at hf
    · cases hf
    · split at hf
      · cases hf
      · cases hf
        have hsign := mt (sext8_neg_iff h.len).2 ‹_›
        omega

theorem parsedRegs_frameOk {c : Params} {f : List Byte} {h : FrameHeader}
    (hf : parseFrame f = .ok h) : FrameOk (parsedRegs c f h) := by
  obtain ⟨hlen, hfits⟩ := parseFrame_ok_bounds hf
  have hpay : (parsedRegs c f h).fpay.length = h.len.toNat := by
    rw [parsedRegs, length_byteRange]
    omega
  exact ⟨fun _ => ⟨hlen, hpay, rfl, rfl, rfl⟩, nofun, nofun, hpay.trans_le hlen, Nat.zero_le _⟩

theorem shellRegs_frameOk (c : Params) (d : List Byte) (ef : Byte) :
    FrameOk (shellRegs c d ef) :=
  ⟨nofun, fun _ => ⟨rfl, rfl, rfl⟩, nofun, Nat.zero_le _, Nat.zero_le _⟩

theorem dropFrame_frameOk {s : State} (hs : FrameOk s.frame) : FrameOk (dropFrame s).frame := by
  obtain ⟨-, -, -, hpay, hplain⟩ := hs
  exact ⟨nofun, nofun, nofun, hpay, hplain⟩

/-- FDATA caches no more bytes than FPAY has, and in a PARSED frame (10_state.md R36). -/
theorem cachePlain_frameOk {p : List Byte} {s : State} (hs : FrameOk s.frame)
    (hp : s.frame.fstate = .parsed) (hl : p.length ≤ s.frame.fpay.length) :
    FrameOk (cachePlain p s).frame := by
  obtain ⟨hparsed, hshell, -, hpay, -⟩ := hs
  exact ⟨hparsed, hshell, fun _ => by simp [hp], hpay, hl.trans hpay⟩

theorem setCommandType_frameOk {cmd : Byte} {s : State} (hs : FrameOk s.frame) :
    FrameOk (setCommandType cmd s).frame := by
  obtain ⟨hparsed, hrest⟩ := hs
  refine ⟨fun hp => ?_, hrest⟩
  obtain ⟨hlen, hpay, hleg, -, hok⟩ := hparsed hp
  exact ⟨hlen, hpay, hleg, rfl, hok⟩

theorem After.frameOk {c : Params} {i : Instr} {s t : State} (h : After c i s t)
    (hs : FrameOk s.frame) : FrameOk t.frame := by
  cases h with
  | dropped => exact dropFrame_frameOk hs
  | decoded p _ _ hp _ hlen => exact cachePlain_frameOk hs hp hlen
  | parsed f _ hf => exact parsedRegs_frameOk hf
  | drawnShell ef => exact shellRegs_frameOk c (input s) ef
  | shell => exact shellRegs_frameOk c (input s) c.appCommandFlag
  | commandSet => exact setCommandType_frameOk hs
  | _ => exact hs

/-! ## CFG, ERRACC and STATUS -/

theorem After.configOk {c : Params} {i : Instr} {s t : State} (h : After c i s t)
    (hs : ConfigOk s) : ConfigOk t := by
  cases h with
  | configured imm _ hr => exact hr
  | _ => exact hs

/-- The reserved bits 15:9 of ERRACC are 0 exactly when each of them is. -/
theorem extractLsb'_erracc_eq_zero_iff (e : BitVec 16) :
    e.extractLsb' 9 7 = 0#7 ↔ ∀ k, 9 ≤ k → e.getLsbD k = false := by
  constructor
  · intro h k hk
    by_cases hlt : k < 16
    · have hbit := congrArg (BitVec.getLsbD · (k - 9)) h
      simpa [show k - 9 < 7 by omega, show 9 + (k - 9) = k by omega] using hbit
    · exact BitVec.getLsbD_of_ge e k (by omega)
  · intro h
    apply BitVec.eq_of_getLsbD_eq
    intro k _
    simp [h (9 + k) (by omega)]

theorem Ends.errorsOk {s t : State} (h : Ends s t) (hs : ErrorsOk s) : ErrorsOk t := by
  obtain ⟨h0, hhigh, -⟩ := hs
  have hreserved := h.erracc_reserved
  refine ⟨(hreserved 0 (.inl rfl)).trans h0, ?_, h.status_erracc.1⟩
  rw [extractLsb'_erracc_eq_zero_iff] at hhigh ⊢
  exact fun k hk => (hreserved k (.inr hk)).trans (hhigh k hk)

/-! ## All of them -/

theorem After.invariants {c : Params} {i : Instr} {s t : State} (h : After c i s t)
    (hs : Invariants c s) : Invariants c t := by
  obtain ⟨hbuf, hframe, hcfg, herr⟩ := hs
  exact ⟨h.buffersOk hbuf, h.frameOk hframe, h.configOk hcfg, h.ends.errorsOk herr⟩

theorem raise_invariants {c : Params} (e : ErrorCode) {s : State} (hs : Invariants c s) :
    Invariants c (raise e s) := by
  obtain ⟨hbuf, hframe, hcfg, herr⟩ := hs
  exact ⟨hbuf, hframe, hcfg, (ends_raise e s).errorsOk herr⟩

/-- After reset both buffers are empty in the canonical form, and the frame is neither PARSED nor SHELL. -/
theorem reset_invariants (c : Params) : Invariants c State.reset := by
  have hbuf : BuffersOk c State.reset :=
    ⟨Nat.zero_le _, Nat.zero_le _, ⟨.nil, nofun⟩, nofun, ⟨.nil, nofun⟩, nofun⟩
  have hframe : FrameOk State.reset.frame :=
    ⟨nofun, nofun, nofun, Nat.zero_le _, Nat.zero_le _⟩
  exact ⟨hbuf, hframe, rfl, rfl, rfl, Nat.zero_le _⟩

/-- A command word keeps the invariants. -/
theorem commandWord_invariants {c : Params} {draw : Fin 127} {cw : CommandWord} {s t : State}
    (hs : Invariants c s) (h : commandWord c draw cw s = .next t) : Invariants c t := by
  obtain ⟨i, -, hi⟩ | ⟨-, rfl⟩ := commandWord_cases h
  · exact hi.invariants hs
  · exact raise_invariants _ hs

/-- Every host action keeps the invariants. -/
theorem blockAction_invariants {c : Params} {draw : Fin 127} {a : HostAction} {s t : State}
    (hs : Invariants c s) (h : blockAction c draw a s = .next t) : Invariants c t := by
  cases a with
  | load bytes =>
    obtain ⟨hl, rfl⟩ := (hostLoad_eq_next c bytes s t).1 h
    obtain ⟨hbuf, hrest⟩ := hs
    exact ⟨taken_buffersOk hbuf hl, hrest⟩
  | issue cw => exact commandWord_invariants hs h
  | read r =>
    cases h
    exact hs
  | reset =>
    cases h
    exact reset_invariants c

/-- Settles O13. -/
theorem resetStateMeetsTheInvariants : Obligations.ResetStateMeetsTheInvariants :=
  reset_invariants Config.params

/-- Settles O14: a step waits, or performs an action, and taking the action from the port touches no
invariant. -/
theorem stepKeepsTheInvariants : Obligations.StepKeepsTheInvariants := by
  intro s t hs h
  obtain ⟨-, hwait⟩ | ⟨a, rest, -, hact⟩ := step_cases s
  · cases hwait.symm.trans h
    exact hs
  · rw [hact, perform_eq_blockAction] at h
    exact blockAction_invariants (s := { s with port := rest }) hs h

/-- Settles O60. -/
theorem blockStepKeepsTheInvariants : Obligations.BlockStepKeepsTheInvariants := by
  intro c draw cw s t code hs h
  obtain ⟨hword, hcode⟩ := (blockStep_eq_next c draw cw s t code).1 h
  exact ⟨commandWord_invariants hs hword, hcode⟩

end Sys2Proof.Machine
end

section
/-!
How many draws of SEED_DRAW a command spends (20_memory.md R57; 60_exceptions.md R148). The lemmas are for all
parameters and every draw.
-/
namespace Sys2Proof.Machine

open Sys2Proof.Claims

/-- Only LENCR and FINIT can spend a draw. -/
theorem After.keepsDraws {c : Params} {i : Instr} {s t : State} (h : After c i s t)
    (hlencr : i ≠ .lencr) (hfinit : i ≠ .finit) : t.draws = s.draws := by
  cases h with
  | seeded _ _ h => exact absurd h hlencr
  | drawnShell _ h => exact absurd h hfinit
  | _ => rfl

/-- LENCR has no error, so it always spends its draw. -/
theorem lencrWith_draws {c : Params} {draw : Fin 127} {s t : State}
    (h : lencrWith c draw s = .next t) : t.draws = s.draws + 1 := by
  obtain ⟨-, rfl⟩ := eq_emitted_of_finishWith h
  rfl

/-- FINIT spends its draw exactly when the input is a descriptor and its byte 0 is a legacy-V2 protocolType
(43_frame.md R130, R131). -/
theorem finitWith_draws {c : Params} {draw : Fin 127} {s t : State}
    (h : finitWith c draw s = .next t) :
    t.draws =
      s.draws + if s.ilen = 7 ∧ drawsEncryptFlag c (inByte s 0) = true then 1 else 0 := by
  by_cases h7 : s.ilen = 7
  · have hbyte : byteAt (input s) 0 = inByte s 0 := byteAt_input s 0 (by omega)
    cases hd : drawsEncryptFlag c (inByte s 0)
    · simp only [finitWith, h7, hbyte, hd] at h
      cases h
      simp
    · simp only [finitWith, h7, hbyte, hd] at h
      cases h
      simp [h7]
  · rw [finitWith, if_pos h7] at h
    cases h
    simp [h7]

/-- The draws a command spends. -/
theorem command_draws {c : Params} {draw : Fin 127} {i : Instr} {s t : State}
    (h : command c draw i s = .next t) :
    t.draws = s.draws +
      if i = .lencr ∨ (i = .finit ∧ s.ilen = 7 ∧ drawsEncryptFlag c (inByte s 0) = true)
        then 1 else 0 := by
  by_cases hlencr : i = .lencr
  · subst hlencr
    simpa using lencrWith_draws h
  by_cases hfinit : i = .finit
  · subst hfinit
    simpa using finitWith_draws h
  simpa [hlencr, hfinit] using (command_cases c draw i s t h).keepsDraws hlencr hfinit

/-- Settles O22, from `command_draws` at `Config.params`. -/
theorem drawsSpentByLencrAndFinitOnly : Obligations.DrawsSpentByLencrAndFinitOnly := by
  intro i s t h
  exact command_draws (exec_eq_command i s ▸ h)

end Sys2Proof.Machine
end

section
/-!
What a command cannot see: the pending host actions, and IBUF at ILEN and above (20_memory.md R49, R59). One
update `rehost` replaces both, and every command but MOVOI commutes with it; MOVOI, the one command that stores
into IBUF, does where `rehost` leaves IBUF alone.
-/
namespace Sys2Proof.Machine

/-- The result with its next state, if it has one, through `f`. -/
def mapNext (f : State → State) (r : Result) : Result :=
  match r with
  | .next t => .next (f t)
  | .fault e => .fault e
  | .refused e => .refused e

@[simp] theorem mapNext_next (f : State → State) (t : State) : mapNext f (.next t) = .next (f t) := rfl

/-- The state with IBUF and the pending host actions each through a function. -/
def rehost (b : Memory → Memory) (p : List HostAction → List HostAction) (s : State) : State :=
  { s with ibuf := b s.ibuf, port := p s.port }

section
variable (b : Memory → Memory) (p : List HostAction → List HostAction) (s : State)

/-! The other registers, and what is computed from them. -/

@[simp] theorem rehost_ilen : (rehost b p s).ilen = s.ilen := rfl
@[simp] theorem rehost_ibuf : (rehost b p s).ibuf = b s.ibuf := rfl
@[simp] theorem rehost_key : (rehost b p s).key = s.key := rfl
@[simp] theorem rehost_kvalid : (rehost b p s).kvalid = s.kvalid := rfl
@[simp] theorem rehost_frame : (rehost b p s).frame = s.frame := rfl
@[simp] theorem crcOk_rehost : crcOk (rehost b p s) = crcOk s := rfl
@[simp] theorem decodePayload_rehost : decodePayload (rehost b p s) = decodePayload s := rfl

/-- READ shows no pending action. -/
theorem readReg_rehost (c : Params) (r : RegName) : readReg c r (rehost id p s) = readReg c r s := by
  cases r <;> rfl

/-! The updates of the other registers, and the ends of a command. -/

@[simp] theorem finish_rehost : finish (rehost b p s) = rehost b p (finish s) := rfl
@[simp] theorem raise_rehost (e : ErrorCode) : raise e (rehost b p s) = rehost b p (raise e s) := rfl
@[simp] theorem consumeDraw_rehost : consumeDraw (rehost b p s) = rehost b p (consumeDraw s) := rfl
@[simp] theorem dropFrame_rehost : dropFrame (rehost b p s) = rehost b p (dropFrame s) := rfl
@[simp] theorem setFrame_rehost (f : FrameRegs) :
    setFrame f (rehost b p s) = rehost b p (setFrame f s) := rfl
@[simp] theorem cachePlain_rehost (d : List Byte) :
    cachePlain d (rehost b p s) = rehost b p (cachePlain d s) := rfl
@[simp] theorem setCommandType_rehost (cmd : Byte) :
    setCommandType cmd (rehost b p s) = rehost b p (setCommandType cmd s) := rfl
@[simp] theorem setEncryptFlag_rehost (ef : Byte) :
    setEncryptFlag ef (rehost b p s) = rehost b p (setEncryptFlag ef s) := rfl
@[simp] theorem setKey_rehost (k : Block) (v : Bool) :
    setKey k v (rehost b p s) = rehost b p (setKey k v s) := rfl
@[simp] theorem setConfig_rehost (image : Byte) :
    setConfig image (rehost b p s) = rehost b p (setConfig image s) := rfl
@[simp] theorem finishWith_rehost (c : Params) (bytes : List Byte) :
    finishWith c bytes (rehost b p s) = mapNext (rehost b p) (finishWith c bytes s) := by
  by_cases h : bytes.length ≤ c.obufCap
  · simp only [finishWith, setOutput, if_pos h]
    rfl
  · simp [finishWith, setOutput, h, mapNext]

/-! FDATA and the commands with no operand in IBUF. -/

theorem fdataWith_rehost (c : Params) :
    fdataWith c (rehost b p s) = mapNext (rehost b p) (fdataWith c s) := by
  by_cases hp : s.frame.fstate = .parsed
  · cases hd : s.frame.fdone
    · cases hc : crcOk s
      · simp [fdataWith, hp, hd, hc]
      · cases hf : decodePayload s <;> simp [fdataWith, hp, hd, hc, hf]
    · simp [fdataWith, hp, hd]
  · simp [fdataWith, hp]

theorem execFsetcmd_rehost (imm : Byte) :
    execFsetcmd imm (rehost b p s) = mapNext (rehost b p) (execFsetcmd imm s) := by
  by_cases h : s.frame.fstate = .empty <;> simp [execFsetcmd, h]

theorem execFsetef_rehost (imm : Byte) :
    execFsetef imm (rehost b p s) = mapNext (rehost b p) (execFsetef imm s) := by
  by_cases h : s.frame.fstate = .empty <;> simp [execFsetef, h]

theorem execCfgw_rehost (imm : Byte) :
    execCfgw imm (rehost b p s) = mapNext (rehost b p) (execCfgw imm s) := by
  by_cases h : cfgReserved imm = 0#7 <;> simp [execCfgw, h]

end

/-! ## The commands that read the input

Each reads IBUF through `in()`, a slice of it or one of its bytes, all below ILEN. -/

section
variable {b : Memory → Memory} {p : List HostAction → List HostAction} {s : State}
  (hb : ∀ a < s.ilen, (b s.ibuf).read a = s.ibuf.read a)
include hb

theorem input_rehost : input (rehost b p s) = input s := input_congr s _ rfl hb

theorem inputSlice_rehost (n : Nat) (hn : n ≤ s.ilen) :
    inputSlice (rehost b p s) 0 n = inputSlice s 0 n :=
  Memory.slice_congr _ _ _ _ fun i hi => by simpa using hb i (by omega)

theorem frameBody_rehost : frameBody (rehost b p s) = frameBody s := by
  simp only [frameBody, input_rehost hb, rehost_frame, rehost_kvalid, rehost_key]

theorem ldecsWith_rehost (c : Params) :
    ldecsWith c (rehost b p s) = mapNext (rehost b p) (ldecsWith c s) := by
  by_cases h0 : s.ilen = 0
  · simp [ldecsWith, h0]
  · have hslice := inputSlice_rehost (p := p) hb (s.ilen - 1) (by omega)
    have hseed := hb (s.ilen - 1) (by omega)
    simp [ldecsWith, h0, hslice, hseed]

theorem execKload_rehost :
    execKload (rehost b p s) = mapNext (rehost b p) (execKload s) := by
  by_cases h16 : s.ilen = 16
  · have hslice := inputSlice_rehost (p := p) hb 16 h16.ge
    simp [execKload, h16, hslice]
  · simp [execKload, h16]

theorem aesencWith_rehost (c : Params) :
    aesencWith c (rehost b p s) = mapNext (rehost b p) (aesencWith c s) := by
  cases hk : s.kvalid <;> simp [aesencWith, hk, input_rehost hb]

theorem aesdecWith_rehost (c : Params) :
    aesdecWith c (rehost b p s) = mapNext (rehost b p) (aesdecWith c s) := by
  cases hk : s.kvalid
  · simp [aesdecWith, hk]
  · cases hd : cbcDec (input s) s.key <;> simp [aesdecWith, hk, input_rehost hb, hd]

theorem fparseWith_rehost (c : Params) :
    fparseWith c (rehost b p s) = mapNext (rehost b p) (fparseWith c s) := by
  cases hf : parseFrame (input s) <;> simp [fparseWith, input_rehost hb, hf]

theorem finitWith_rehost (c : Params) (draw : Fin 127) :
    finitWith c draw (rehost b p s) = mapNext (rehost b p) (finitWith c draw s) := by
  by_cases h7 : s.ilen = 7
  · cases hd : drawsEncryptFlag c (byteAt (input s) 0) <;>
      simp [finitWith, h7, input_rehost hb, hd]
  · simp [finitWith, h7]

theorem fbuildWith_rehost (c : Params) :
    fbuildWith c (rehost b p s) = mapNext (rehost b p) (fbuildWith c s) := by
  by_cases h : s.frame.fstate = .empty ∨ s.frame.fcmdv = false
  · simp [fbuildWith, h]
  · cases hf : frameBody s <;> simp [fbuildWith, h, frameBody_rehost hb, hf]

/-- Every command but MOVOI does the same with any bytes of IBUF at ILEN and above and any pending actions. -/
theorem command_rehost (c : Params) (draw : Fin 127) {i : Instr} (hi : i ≠ .movoi) :
    command c draw i (rehost b p s) = mapNext (rehost b p) (command c draw i s) := by
  cases i with
  | movoi => exact absurd rfl hi
  | nop | kclr => rfl
  | crc8 | lenc imm | ldec imm =>
    simp [command, crc8With, lencWith, ldecWith, input_rehost hb]
  | crclut imm => exact finishWith_rehost b p s c _
  | lencr =>
    have hin : input (rehost b p (consumeDraw s)) = input (consumeDraw s) := input_rehost hb
    simp [command, lencrWith, encodeAppendingSeed, hin]
  | ldecs => exact ldecsWith_rehost hb c
  | kload => exact execKload_rehost hb
  | aesenc => exact aesencWith_rehost hb c
  | aesdec => exact aesdecWith_rehost hb c
  | fparse => exact fparseWith_rehost hb c
  | fdata => exact fdataWith_rehost b p s c
  | finit => exact finitWith_rehost hb c draw
  | fsetcmd imm => exact execFsetcmd_rehost b p s imm
  | fsetef imm => exact execFsetef_rehost b p s imm
  | fbuild => exact fbuildWith_rehost hb c
  | cfgw imm => exact execCfgw_rehost b p s imm

end

/-! ## MOVOI -/

/-- MOVOI of an output that fits takes it as the input (44_control.md R142). -/
theorem movoiWith_fits (c : Params) (s : State) (h : s.olen ≤ c.ibufCap) :
    movoiWith c s = .next (finish (taken (output s) s)) := by
  have hset : setInput c (output s) s = some (taken (output s) s) :=
    (setInput_eq_some _ _ _ _).2 ⟨by simpa using h, rfl⟩
  rw [movoiWith, hset]

/-- MOVOI of an output that does not fit is INVALID_LENGTH (44_control.md R142). -/
theorem movoiWith_overlong (c : Params) (s : State) (h : c.ibufCap < s.olen) :
    movoiWith c s = fails .invalidLength s := by
  rw [movoiWith, (setInput_eq_none _ _ _).2 (by simpa using h)]

/-- MOVOI from other bytes of IBUF at ILEN and above: the same but for IBUF, and the same input. -/
theorem movoiWith_other_ibuf {c : Params} {s t : State} {m : Memory}
    (hm : ∀ a < s.ilen, m.read a = s.ibuf.read a) (h : movoiWith c s = .next t) :
    ∃ t', movoiWith c { s with ibuf := m } = .next t' ∧ { t' with ibuf := t.ibuf } = t ∧
      input t' = input t := by
  rcases Nat.lt_or_ge c.ibufCap s.olen with hlong | hfits
  · rw [movoiWith_overlong c s hlong] at h
    cases h
    exact ⟨_, movoiWith_overlong c _ hlong, rfl, input_congr s _ rfl hm⟩
  · rw [movoiWith_fits c s hfits] at h
    cases h
    obtain ⟨hin, -⟩ := input_taken (output s) s
    obtain ⟨hin', -⟩ := input_taken (output s) { s with ibuf := m }
    exact ⟨_, movoiWith_fits c _ hfits, rfl, hin'.trans hin.symm⟩

/-- MOVOI does the same with any pending actions. -/
theorem movoiWith_rehost_port (c : Params) (p : List HostAction → List HostAction) (s : State) :
    movoiWith c (rehost id p s) = mapNext (rehost id p) (movoiWith c s) := by
  rcases Nat.lt_or_ge c.ibufCap s.olen with hlong | hfits
  · rw [movoiWith_overlong c s hlong, movoiWith_overlong c (rehost id p s) hlong]
    rfl
  · rw [movoiWith_fits c s hfits, movoiWith_fits c (rehost id p s) hfits]
    rfl

/-- Settles O23: MOVOI by its two cases; any other command commutes with `rehost`, and keeps the input. -/
theorem bytesAboveIlenHaveNoEffect : Obligations.BytesAboveIlenHaveNoEffect := by
  intro i s t m hm h
  by_cases hi : i = .movoi
  · subst hi
    exact movoiWith_other_ibuf hm h
  · have hrun : exec i { s with ibuf := m } = .next (rehost (fun _ => m) id t) := by
      calc exec i { s with ibuf := m }
          = command Config.params (nextDraw s) i (rehost (fun _ => m) id s) := exec_eq_command i _
        _ = mapNext (rehost (fun _ => m) id) (exec i s) := by
            rw [command_rehost hm Config.params (nextDraw s) hi, exec_eq_command]
        _ = .next (rehost (fun _ => m) id t) := by rw [h, mapNext_next]
    obtain ⟨hilen, hread⟩ := (exec_cases i s t h).keepsInput hi
    refine ⟨_, hrun, rfl, input_congr t _ rfl fun a ha => ?_⟩
    exact (hm a (hilen ▸ ha)).trans (hread a).symm

/-! ## The pending actions (20_memory.md R59; LOG 1) -/

/-- Settles O8: the step is the READ, and taking the action from the port changes no register's value. -/
theorem readChangesNothingInTheBlock : Obligations.ReadChangesNothingInTheBlock := by
  intro s r rest hport
  have hvalue : readReg Config.params r { s with port := rest } = readReg Config.params r s :=
    readReg_rehost (fun _ => rest) s Config.params r
  rw [step_of_port_cons s _ rest hport, perform, hostRead, hvalue]

/-- No command depends on the pending actions. -/
theorem command_rehost_port (c : Params) (draw : Fin 127) (i : Instr)
    (p : List HostAction → List HostAction) (s : State) :
    command c draw i (rehost id p s) = mapNext (rehost id p) (command c draw i s) := by
  by_cases hi : i = .movoi
  · subst hi
    exact movoiWith_rehost_port c p s
  · exact command_rehost (fun _ _ => rfl) c draw hi

/-- No host action depends on the actions after it. -/
theorem blockAction_rehost_port (c : Params) (draw : Fin 127) (a : HostAction)
    (p : List HostAction → List HostAction) (s : State) :
    blockAction c draw a (rehost id p s) = mapNext (rehost id p) (blockAction c draw a s) := by
  cases a with
  | load bytes =>
    by_cases h : bytes.length ≤ c.ibufCap
    · simp only [blockAction, hostLoad, setInput, if_pos h]
      rfl
    · simp [blockAction, hostLoad, setInput, h, mapNext]
  | issue cw =>
    rw [blockAction, blockAction, commandWord, commandWord]
    cases decode cw with
    | ok i => exact command_rehost_port c draw i p s
    | error e => rfl
  | read r =>
    rw [blockAction, blockAction, hostRead, hostRead, readReg_rehost]
    rfl
  | reset => rfl

/-- No host action changes the actions after it. -/
theorem perform_port {a : HostAction} {s t : State} (h : perform a s = .next t) : t.port = s.port := by
  cases a with
  | load bytes =>
    obtain ⟨-, rfl⟩ := (hostLoad_eq_next _ _ _ _).1 h
    rfl
  | issue cw =>
    have hword : commandWord Config.params (nextDraw s) cw s = .next t :=
      (issueWord_eq_commandWord cw s).symm.trans h
    obtain ⟨i, -, hi⟩ | ⟨-, rfl⟩ := commandWord_cases hword
    · obtain ⟨hport, -⟩ := hi.keepsHostSide
      exact hport
    · rfl
  | read r | reset =>
    cases h
    rfl

/-- A step with an action at the front of the port is that action, the rest being pending after it. -/
theorem step_of_perform {a : HostAction} {s t : State} (rest : List HostAction)
    (h : perform a s = .next t) :
    step { s with port := a :: rest } = .next { t with port := rest } := by
  calc step { s with port := a :: rest }
      = perform a (rehost id (fun _ => rest) s) := step_of_port_cons _ a rest rfl
    _ = mapNext (rehost id fun _ => rest) (perform a s) := by
        rw [perform_eq_blockAction, perform_eq_blockAction]
        exact blockAction_rehost_port Config.params (nextDraw s) a _ s
    _ = .next { t with port := rest } := by rw [h]; rfl

/-- The steps of a machine go on from the state its first step gives. -/
theorem coreRun_succ (core : Host.Core) {s t : core.State} (n : Nat) (h : core.step s = .next t) :
    core.run (n + 1) s = core.run n t := by
  rw [Host.Core.run, h]

/-- A run of one action or more is its first action and then a run of the others. -/
theorem run_cons_eq_some {a : HostAction} {actions : List HostAction} {s t : State}
    {codes : List (BitVec 8)} (h : run (a :: actions) s = some (t, codes)) :
    ∃ u codes', perform a s = .next u ∧ run actions u = some (t, codes') := by
  rw [run] at h
  cases ha : perform a s with
  | next u =>
    rw [ha] at h
    cases hr : run actions u with
    | some v =>
      obtain ⟨t', codes'⟩ := v
      simp only [hr, Option.some.injEq, Prod.mk.injEq] at h
      obtain ⟨rfl, -⟩ := h
      exact ⟨u, codes', rfl, hr⟩
    | none => simp [hr] at h
  | fault e => simp [ha] at h
  | refused e => simp [ha] at h

/-- Settles O24, by induction on the actions: each is one step, with the others and `rest` left pending. -/
theorem stepsTakeActionsInIssueOrder : Obligations.StepsTakeActionsInIssueOrder := by
  intro actions rest
  induction actions with
  | nil =>
    intro s t codes hport h
    cases h
    subst hport
    rfl
  | cons a actions ih =>
    intro s t codes hport h
    obtain ⟨u, codes', hperform, hrun⟩ := run_cons_eq_some h
    have huport : u.port = rest := (perform_port hperform).trans hport
    have hstep : Sys2Proof.core.step { s with port := a :: (actions ++ rest) } =
        .next { u with port := actions ++ rest } := step_of_perform _ hperform
    exact (coreRun_succ Sys2Proof.core actions.length hstep).trans (ih u t codes' huport hrun)

end Sys2Proof.Machine
end

section
/-!
The decoder and the encoder (30_encoding.md R61 to R66): the fields of an assembled word, each opcode's row, and
`decode_eq_ok_iff`, which says once which words decode and to what.
-/
namespace Sys2Proof

open Sys2Proof.Claims

/-! ## The fields of an assembled word -/

@[simp] theorem opField_assembleWord (op imm : Byte) : opField (assembleWord op imm) = op := by
  ext i hi
  simp [opField, assembleWord, hi, show i < 32 by omega]

@[simp] theorem immField_assembleWord (op imm : Byte) : immField (assembleWord op imm) = imm := by
  ext i hi
  simp [immField, assembleWord, show 8 + i < 32 by omega, BitVec.getLsbD_eq_getElem hi]

@[simp] theorem rsvField_assembleWord (op imm : Byte) : rsvField (assembleWord op imm) = 0#16 := by
  ext i hi
  have hop : op.getLsbD (16 + i) = false := BitVec.getLsbD_of_ge _ _ (by omega)
  have himm : imm.getLsbD (16 + i - 8) = false := BitVec.getLsbD_of_ge _ _ (by omega)
  simp [rsvField, assembleWord, hop, himm]

/-- A word is its three fields. -/
theorem CommandWord.ext_fields {v w : CommandWord} (hop : opField v = opField w)
    (himm : immField v = immField w) (hrsv : rsvField v = rsvField w) : v = w := by
  apply BitVec.eq_of_getLsbD_eq
  intro i hi
  rcases Nat.lt_or_ge i 8 with h8 | h8
  · simpa [opField, h8] using congrArg (BitVec.getLsbD · i) hop
  rcases Nat.lt_or_ge i 16 with h16 | h16
  · simpa [immField, show i - 8 < 8 by omega, show 8 + (i - 8) = i by omega] using
      congrArg (BitVec.getLsbD · (i - 8)) himm
  · simpa [rsvField, show i - 16 < 16 by omega, show 16 + (i - 16) = i by omega] using
      congrArg (BitVec.getLsbD · (i - 16)) hrsv

/-! ## The opcode map (30_encoding.md R64) -/

/-- A row whose IMM8 is "0" is the row of its command's opcode. -/
theorem opcodeRow_eq_zero {op : Byte} {i : Instr} (h : opcodeRow op = some (.zero i)) :
    i.opcode = op ∧ i.immediate = 0#8 := by
  unfold opcodeRow at h
  split at h <;> cases h <;> exact ⟨(BitVec.eq_of_toNat_eq ‹_›).symm, rfl⟩

/-- A row whose IMM8 is "imm" is the row of its commands' opcode. -/
theorem opcodeRow_eq_imm {op : Byte} {mk : Byte → Instr} (h : opcodeRow op = some (.imm mk))
    (imm : Byte) : (mk imm).opcode = op ∧ (mk imm).immediate = imm := by
  unfold opcodeRow at h
  split at h <;> cases h <;> exact ⟨(BitVec.eq_of_toNat_eq ‹_›).symm, rfl⟩

/-- Every command stands in its opcode's row, and WellFormed.lean's list says which kind of row it is. -/
theorem opcodeRow_opcode (i : Instr) :
    (opcodeRow i.opcode = some (.zero i) ∧ i.immediate = 0#8 ∧ takesImmediate i.opcode = false) ∨
      ∃ mk, opcodeRow i.opcode = some (.imm mk) ∧ mk i.immediate = i ∧
        takesImmediate i.opcode = true := by
  cases i with
  | crclut imm | lenc imm | ldec imm | fsetcmd imm | fsetef imm | cfgw imm =>
    exact .inr ⟨_, rfl, rfl, rfl⟩
  | _ => exact .inl ⟨rfl, rfl, rfl⟩

@[simp] theorem unusedOpcode_opcode (i : Instr) : unusedOpcode i.opcode = false := by
  cases i <;> rfl

/-- The opcodes in the ranges of 30_encoding.md R66 are those with no row. -/
theorem unusedOpcode_of_opcodeRow_eq_none {op : Byte} (h : opcodeRow op = none) :
    unusedOpcode op = true := by
  have hop := op.isLt
  unfold opcodeRow at h
  split at h <;> cases h
  simp only [imp_false] at *
  simp only [unusedOpcode, Bool.or_eq_true, Bool.and_eq_true, decide_eq_true_eq]
  omega

/-! ## The decoder (30_encoding.md R65) -/

/-- A word decodes to a command exactly when its fields are the command's opcode and immediate and RSV is
clear. -/
theorem decode_eq_ok_iff (cw : CommandWord) (i : Instr) :
    decode cw = .ok i ↔
      rsvField cw = 0#16 ∧ opField cw = i.opcode ∧ immField cw = i.immediate := by
  constructor
  · intro h
    unfold decode at h
    split at h
    · cases h
    · refine ⟨not_not.1 ‹_›, ?_⟩
      split at h
      · cases h
      · split at h <;> cases h
        obtain ⟨hop, himm⟩ := opcodeRow_eq_zero ‹_›
        exact ⟨hop.symm, himm ▸ not_not.1 ‹¬ immField cw ≠ 0#8›⟩
      · cases h
        obtain ⟨hop, himm⟩ := opcodeRow_eq_imm ‹_› (immField cw)
        exact ⟨hop.symm, himm.symm⟩
  · rintro ⟨hrsv, hop, himm⟩
    obtain ⟨hrow, h0, -⟩ | ⟨mk, hrow, hmk, -⟩ := opcodeRow_opcode i
    · simp [decode, hrsv, hop, hrow, himm, h0]
    · simp [decode, hrsv, hop, hrow, himm, hmk]

@[simp] theorem decode_encode (i : Instr) : decode (encode i) = .ok i := by
  simp [decode_eq_ok_iff, encode]

/-- A row whose IMM8 is "0", as the statements about its command say it. -/
theorem zeroRow_of_opcodeRow {op : Byte} {i : Instr} (h : opcodeRow op = some (.zero i)) :
    ZeroRow op i :=
  ⟨by simp [decode, h], fun imm himm => by simp [decode, h, himm]⟩

/-- A row whose IMM8 is "imm", as the statements about its commands say it. -/
theorem immRow_of_opcodeRow {op : Byte} {mk : Byte → Instr} (h : opcodeRow op = some (.imm mk)) :
    ImmRow op mk :=
  fun imm => by simp [decode, h]

/-- Settles O1. -/
theorem decodeEncodeAgree : Obligations.DecodeEncodeAgree := decode_encode

/-- Settles O2: the word and its command's word have the same fields. -/
theorem decodedWordIsTheCommandsWord : Obligations.DecodedWordIsTheCommandsWord := by
  intro cw i h
  obtain ⟨hrsv, hop, himm⟩ := (decode_eq_ok_iff cw i).1 h
  exact CommandWord.ext_fields (by simp [encode, hop]) (by simp [encode, himm])
    (by simp [encode, hrsv])

/-! ## Legal words (30_encoding.md R66), which WellFormed.lean writes apart from the decoder -/

/-- The three cases of 30_encoding.md R66, as the fields of a word say them. -/
theorem wellFormedWord_iff (cw : CommandWord) :
    wellFormedWord cw = true ↔
      rsvField cw = 0#16 ∧ unusedOpcode (opField cw) = false ∧
        (takesImmediate (opField cw) = true ∨ immField cw = 0#8) := by
  simp [wellFormedWord, reservedClear, opcodeUsed, immediateAdmitted, rsvField, opField, immField,
    and_assoc]

@[simp] theorem wellFormedWord_encode (i : Instr) : wellFormedWord (encode i) = true := by
  rw [wellFormedWord_iff]
  obtain ⟨-, h0, -⟩ | ⟨mk, -, -, himm⟩ := opcodeRow_opcode i
  · simp [encode, h0]
  · simp [encode, himm]

/-- A legal word decodes: its opcode has a row, and a row whose IMM8 is "0" finds IMM8 zero. -/
theorem decode_of_wellFormedWord {cw : CommandWord} (h : wellFormedWord cw = true) :
    ∃ i, decode cw = .ok i := by
  obtain ⟨hrsv, hused, himm⟩ := (wellFormedWord_iff cw).1 h
  cases hrow : opcodeRow (opField cw) with
  | none => simp [unusedOpcode_of_opcodeRow_eq_none hrow] at hused
  | some row =>
    cases row with
    | imm mk => exact ⟨mk (immField cw), by simp [decode, hrsv, hrow]⟩
    | zero i =>
      obtain ⟨hop, -⟩ := opcodeRow_eq_zero hrow
      obtain ⟨-, -, htakes⟩ | ⟨mk, hrow', -⟩ := opcodeRow_opcode i
      · have h0 : immField cw = 0#8 := himm.resolve_left (by simp [← hop, htakes])
        exact ⟨i, by simp [decode, hrsv, hrow, h0]⟩
      · rw [hop, hrow] at hrow'
        cases hrow'

/-- Settles O3: a word that decodes is its command's word, which is legal. -/
theorem legalWordsAreTheDecodedWords : Obligations.LegalWordsAreTheDecodedWords := by
  intro cw
  refine ⟨decode_of_wellFormedWord, fun ⟨i, h⟩ => ?_⟩
  rw [decodedWordIsTheCommandsWord cw i h]
  exact wellFormedWord_encode i

/-- Settles O4: each word has the fields of its command. -/
theorem sampleWordsDecode : Obligations.SampleWordsDecode := by
  refine ⟨?_, ?_, ?_, ?_, ?_, ?_, ?_, ?_⟩ <;> rw [decode_eq_ok_iff] <;> decide

end Sys2Proof
end

section
/-!
The step on a command word, and the ends of a command as the statements about frames and errors say them.
-/
namespace Sys2Proof.Machine

open Sys2Proof.Claims

/-! ## The step on a command word (30_encoding.md R65) -/

/-- With a command word pending the step issues it, the word being taken from the port. -/
theorem step_of_port_issue {s : State} {cw : CommandWord} {rest : List HostAction}
    (h : s.port = .issue cw :: rest) : step s = issueWord cw { s with port := rest } :=
  step_of_port_cons s _ rest h

theorem issueWord_of_decode {cw : CommandWord} {i : Instr} (h : decode cw = .ok i) (s : State) :
    issueWord cw s = exec i s := by
  simp [issueWord, h]

/-- A word that is not legal ends in ILLEGAL_COMMAND (60_exceptions.md R156). -/
theorem issueWord_of_illegal {cw : CommandWord} (h : wellFormedWord cw = false) (s : State) :
    issueWord cw s = fails .illegalCommand s := by
  obtain ⟨i, hi, -⟩ | ⟨-, hword⟩ := issueWord_cases cw s
  · rw [(legalWordsAreTheDecodedWords cw).2 ⟨i, hi⟩] at h
    cases h
  · exact hword

/-- Settles O5. -/
theorem stepRunsDecodedCommand : Obligations.StepRunsDecodedCommand := by
  intro s cw rest i hport hdecode
  rw [step_of_port_issue hport, issueWord_of_decode hdecode]

/-! ## Ending in an error (60_exceptions.md R148) -/

theorem errorOnly_raise (e : ErrorCode) (s : State) : ErrorOnly e.number s (raise e s) :=
  ⟨⟨rfl, rfl⟩, ⟨⟨rfl, fun _ => rfl⟩, ⟨rfl, fun _ => rfl⟩, ⟨rfl, rfl⟩, rfl, rfl, rfl⟩, rfl, rfl⟩

/-- An image of 2 or more has a reserved bit set (10_state.md R23). -/
theorem cfgReserved_ne_zero {imm : Byte} (h : 2 ≤ imm.toNat) : cfgReserved imm ≠ 0#7 := by
  intro h0
  have himm := imm.isLt
  have hbits := congrArg BitVec.toNat h0
  rw [cfgReserved, BitVec.extractLsb'_toNat, Nat.shiftRight_eq_div_pow, BitVec.toNat_ofNat] at hbits
  omega

/-- CFGW of an image with a reserved bit set ends in ILLEGAL_COMMAND (44_control.md R143). -/
theorem execCfgw_reserved {imm : Byte} (h : 2 ≤ imm.toNat) (s : State) :
    execCfgw imm s = fails .illegalCommand s :=
  if_pos (cfgReserved_ne_zero h)

/-- Settles O6: both kinds of word end in ILLEGAL_COMMAND, the second as a CFGW that is decoded. -/
theorem illegalWordWritesStatusAndErraccOnly : Obligations.IllegalWordWritesStatusAndErraccOnly := by
  intro s cw rest hport hcw
  have hfails : issueWord cw { s with port := rest } =
      fails .illegalCommand { s with port := rest } := by
    obtain hillegal | ⟨imm, himm, rfl⟩ := hcw
    · exact issueWord_of_illegal hillegal _
    · have hdecode : decode (assembleWord 0x40#8 imm) = .ok (.cfgw imm) := decode_encode (.cfgw imm)
      exact (issueWord_of_decode hdecode _).trans (execCfgw_reserved himm _)
  exact ⟨_, (step_of_port_issue hport).trans hfails, errorOnly_raise .illegalCommand _⟩

end Sys2Proof.Machine
end

section
/-!
FPARSE and FINIT on success: which frame registers they write, from which byte of the input (43_frame.md R124,
R125, R130, R131; 30_encoding.md R69 to R72). The lemmas are for all parameters and every draw.
-/
namespace Sys2Proof.Machine

open Sys2Proof.Claims

/-! ## The two dialects (43_frame.md R123) -/

theorem isModern_iff (pt : Byte) : isModern pt = true ↔ pt = 0x00#8 ∨ 5 ≤ pt.toNat := by
  simp [isModern, ← BitVec.toNat_inj, or_comm]

theorem isLegacy_iff (pt : Byte) : isLegacy pt = true ↔ 1 ≤ pt.toNat ∧ pt.toNat ≤ 4 := by
  simp [isLegacy]

/-- Only a legacy protocolType is legacy-V2 (00_scope.md R9). -/
theorem drawsEncryptFlag_of_isModern {c : Params} {pt : Byte} (h : isModern pt = true) :
    drawsEncryptFlag c pt = false := by
  unfold drawsEncryptFlag
  split <;> simp_all [isModern]

/-! ## The writes of the frame registers -/

/-- Writing the frame registers keeps everything else but STATUS and the count of draws. -/
theorem keepsAllButFrame_setFrame (f : FrameRegs) (n : Nat) (s : State) :
    KeepsAllButFrame s (finish (setFrame f { s with draws := n })) :=
  ⟨⟨rfl, fun _ => rfl⟩, ⟨rfl, fun _ => rfl⟩, ⟨rfl, rfl⟩, rfl, rfl, rfl⟩

/-- A range of the input is the slice of IBUF at its indices. -/
theorem byteRange_input (s : State) (i j : Nat) (h : j ≤ s.ilen) :
    byteRange (input s) i j = s.ibuf.slice i (j - i) := by
  apply List.ext_getElem
  · simp only [length_byteRange, length_input, Memory.length_slice]
    omega
  · intro k _ _
    simp [byteRange, input, Memory.slice]

theorem byteAt_input_eq_inByte {s : State} {i : Nat} (h : i < s.ilen) :
    byteAt (input s) i = inByte s i :=
  byteAt_input s i h

/-! ## FPARSE -/

theorem modernHeader_input {s : State} (h : 13 ≤ s.ilen) :
    modernHeader (input s) =
      { hl := 12, pt := inByte s 2, pv := inByte s 3, scene := inByte s 4
        gid := be16 (inByte s 5) (inByte s 6), oid := be16 (inByte s 7) (inByte s 8)
        cmd := inByte s 9, ef := inByte s 10, len := inByte s 11 } := by
  simp (disch := omega) only [modernHeader, byteAt_input_eq_inByte]

theorem legacyHeader_input {s : State} (h : 7 ≤ s.ilen) :
    legacyHeader (input s) =
      { hl := 6, pt := inByte s 2, pv := 0x00#8, scene := 0x00#8, gid := 0x0000#16
        oid := 0x0000#16, cmd := inByte s 3, ef := inByte s 4, len := inByte s 5 } := by
  simp (disch := omega) only [legacyHeader, byteAt_input_eq_inByte]

/-- A header whose payloadLength passes both checks is the parser's answer (30_encoding.md R71). -/
theorem parseFrame_of_parseHeader {f : List Byte} {h : FrameHeader} (hh : parseHeader f = .ok h)
    (hlen : h.len.toNat ≤ 127) (hfit : h.hl + h.len.toNat + 1 ≤ f.length) :
    parseFrame f = .ok h := by
  have hsign : ¬ sext8 h.len < 0 := mt (sext8_neg_iff h.len).1 (by omega)
  simp only [parseFrame, hh, if_neg hsign, if_neg (Nat.not_lt.2 hfit)]

theorem parseHeader_modern {f : List Byte} (hpt : isModern (byteAt f 2) = true)
    (hl : 13 ≤ f.length) : parseHeader f = .ok (modernHeader f) := by
  rw [parseHeader, if_neg (by omega), if_pos hpt, if_neg (by omega)]

theorem parseHeader_legacy {f : List Byte} (hpt : isLegacy (byteAt f 2) = true)
    (hl : 7 ≤ f.length) : parseHeader f = .ok (legacyHeader f) := by
  have hm : ¬ isModern (byteAt f 2) = true := by simpa [isLegacy_eq_not_isModern] using hpt
  rw [parseHeader, if_neg (by omega), if_neg hm]

/-- The frame registers of a frame in the input, as bytes of IBUF (43_frame.md R124, R125). -/
theorem parsedRegs_input (c : Params) {s : State} {h : FrameHeader}
    (hfit : h.hl + h.len.toNat + 1 ≤ s.ilen) (hl : 2 ≤ s.ilen) :
    parsedRegs c (input s) h =
      { fstate := .parsed, fleg := isLegacy h.pt, fhdr := (inByte s 0, inByte s 1)
        fpt := h.pt, fpv := h.pv, fscene := h.scene, fgid := h.gid, foid := h.oid
        fcmd := h.cmd, fcmdv := true, fef := h.ef, fplen := h.len
        fpay := s.ibuf.slice h.hl h.len.toNat
        fcrcrx := inByte s (s.ilen - 1)
        fcrccalc := crc8 (s.ibuf.slice 0 (s.ilen - 1))
        fcrcok := crc8 (s.ibuf.slice 0 (s.ilen - 1)) == inByte s (s.ilen - 1)
        flvar := c.lockVariant h.pt h.pv h.scene
        fdone := false, fplain := [] } := by
  simp (disch := omega) only [parsedRegs, length_input, byteAt_input_eq_inByte, byteRange_input,
    Nat.add_sub_cancel_left, Nat.sub_zero]

/-- FPARSE of a frame that parses writes the frame registers and STATUS. -/
theorem fparseWith_of_parseHeader (c : Params) {s : State} {h : FrameHeader}
    (hh : parseHeader (input s) = .ok h) (hlen : h.len.toNat ≤ 127)
    (hfit : h.hl + h.len.toNat + 1 ≤ s.ilen) :
    fparseWith c s =
      .next (finish (setFrame (parsedRegs c (input s) h) { s with draws := s.draws })) := by
  simp only [fparseWith, parseFrame_of_parseHeader hh hlen (hfit.trans_eq (length_input s).symm)]

/-- Settles O45: the header is the modern one, and its fields are the bytes at their offsets. -/
theorem fparseOfAModernFrameCompletes : Obligations.FparseOfAModernFrameCompletes := by
  intro s hpt hl hlen hfit
  have hmodern : isModern (inByte s 2) = true := (isModern_iff _).2 hpt
  have hleg : isLegacy (inByte s 2) = false := by simp [isLegacy_eq_not_isModern, hmodern]
  have hheader : parseHeader (input s) = .ok (modernHeader (input s)) :=
    parseHeader_modern (by rwa [byteAt_input_eq_inByte (by omega)]) (by simpa using hl)
  rw [modernHeader_input hl] at hheader
  have hexec := fparseWith_of_parseHeader Config.params hheader hlen (by simp only; omega)
  rw [parsedRegs_input Config.params (by simp only; omega) (by omega)] at hexec
  exact ⟨_, hexec, ⟨rfl, rfl⟩, keepsAllButFrame_setFrame _ _ s, rfl, be16_toNat _ _,
    be16_toNat _ _, by simp [hleg, Config.params]⟩

/-- Settles O46: the header is the legacy one, and its fields are the bytes at their offsets. -/
theorem fparseOfALegacyFrameCompletes : Obligations.FparseOfALegacyFrameCompletes := by
  intro s hpt1 hpt4 hl hlen hfit
  have hleg : isLegacy (inByte s 2) = true := (isLegacy_iff _).2 ⟨hpt1, hpt4⟩
  have hheader : parseHeader (input s) = .ok (legacyHeader (input s)) :=
    parseHeader_legacy (by rwa [byteAt_input_eq_inByte (by omega)]) (by simpa using hl)
  rw [legacyHeader_input hl] at hheader
  have hexec := fparseWith_of_parseHeader Config.params hheader hlen (by simp only; omega)
  rw [parsedRegs_input Config.params (by simp only; omega) (by omega)] at hexec
  exact ⟨_, hexec, ⟨rfl, rfl⟩, keepsAllButFrame_setFrame _ _ s, rfl, by simp [hleg, Config.params]⟩

/-! ## FINIT -/

/-- The shell of the descriptor in the input, as bytes of IBUF (43_frame.md R130; 30_encoding.md R72). -/
theorem shellRegs_input (c : Params) (ef : Byte) {s : State} (h7 : s.ilen = 7) :
    shellRegs c (input s) ef =
      { fstate := .shell, fleg := isLegacy (inByte s 0), fhdr := (0x7F#8, 0x5A#8)
        fpt := inByte s 0, fpv := inByte s 1, fscene := inByte s 2
        fgid := be16 (inByte s 3) (inByte s 4), foid := be16 (inByte s 5) (inByte s 6)
        fcmd := 0x00#8, fcmdv := false, fef := ef, fplen := 0x00#8, fpay := []
        fcrcrx := 0x00#8, fcrccalc := 0x00#8, fcrcok := false
        flvar := c.lockVariant (inByte s 0) (inByte s 1) (inByte s 2)
        fdone := false, fplain := [] } := by
  simp (disch := omega) only [shellRegs, byteAt_input_eq_inByte]
  rfl

/-- FINIT of a 7-byte descriptor writes the shell, with a drawn encryptFlag for a legacy-V2 protocolType and
APP_COMMAND_FLAG for every other (43_frame.md R131). -/
theorem finitWith_descriptor (c : Params) (draw : Fin 127) {s : State} (h7 : s.ilen = 7) :
    ∃ (ef : Byte) (n : Nat),
      finitWith c draw s =
        .next (finish (setFrame (shellRegs c (input s) ef) { s with draws := n })) ∧
      if drawsEncryptFlag c (inByte s 0) then 1 ≤ ef.toNat ∧ ef.toNat ≤ 127 ∧ n = s.draws + 1
      else ef = c.appCommandFlag ∧ n = s.draws := by
  rw [finitWith, if_neg (not_not.2 h7), byteAt_input_eq_inByte (by omega)]
  cases drawsEncryptFlag c (inByte s 0)
  · exact ⟨c.appCommandFlag, s.draws, rfl, rfl, rfl⟩
  · obtain ⟨hlow, hhigh⟩ := seedOf_bounds draw
    exact ⟨seedOf draw, s.draws + 1, rfl, hlow, hhigh, rfl⟩

/-- Settles O51: the descriptor's shell with one of the two encryptFlags, or INVALID_LENGTH. -/
theorem finitCompletes : Obligations.FinitCompletes := by
  refine ⟨zeroRow_of_opcodeRow rfl, fun s => ⟨fun h7 => ?_, fun h7 => ?_⟩⟩
  · obtain ⟨ef, n, hexec, hflag⟩ := finitWith_descriptor Config.params (nextDraw s) h7
    rw [shellRegs_input Config.params ef h7] at hexec
    refine ⟨_, ef, hexec, ⟨rfl, rfl⟩, keepsAllButFrame_setFrame _ n s, be16_toNat _ _,
      be16_toNat _ _, ?_, hflag, fun hpt => ?_⟩
    · simp [isLegacy, Config.params]
    · rw [drawsEncryptFlag_of_isModern ((isModern_iff _).2 hpt)] at hflag
      exact hflag.1
  · exact ⟨_, if_pos h7, errorOnly_raise .invalidLength s⟩

end Sys2Proof.Machine
end

section
/-!
The frames FBUILD builds: their lengths, their payloadLength byte and their CRC residue (43_frame.md R134 to
R136; 30_encoding.md R69 to R71; 40_crc8.md R90). The lemmas are for all parameters.
-/
namespace Sys2Proof.Machine

open Sys2Proof.Claims

/-! ## The CRC of a string with its own CRC appended -/

theorem crc8_append_singleton (p : List Byte) (b : Byte) :
    crc8 (p ++ [b]) = crc8Table (crc8 p ^^^ b) := by
  simp [crc8]

/-- A string with its own CRC appended has CRC 0 (40_crc8.md R90). -/
theorem crc8_append_crc8 (p : List Byte) : crc8 (p ++ [crc8 p]) = 0x00#8 := by
  rw [crc8_append_singleton, BitVec.xor_self]
  rfl

/-! ## The length of a ciphertext (42_aes.md R111, R113) -/

@[simp] theorem length_pad (p : List Byte) : (pad p).length = 16 * (p.length / 16 + 1) := by
  simp only [pad, List.length_append, List.length_replicate]
  omega

@[simp] theorem length_cbcEnc (p : List Byte) (k : Block) :
    (cbcEnc p k).length = 16 * (p.length / 16 + 1) := by
  simp [cbcEnc]

/-! ## The frame without its CRC byte -/

/-- A body of the modern dialect is the 12-byte header and a payload of at most 7 blocks, whose length is the
header's last byte. -/
theorem frameBody_modern {s : State} {body : List Byte} (hleg : s.frame.fleg = false)
    (h : frameBody s = .ok body) :
    ∃ c : List Byte, body = modernPrefix s.frame c.length ++ c ∧ c.length ≤ 112 := by
  simp only [frameBody, hleg, Bool.false_eq_true, if_false] at h
  by_cases hkey : (input s).length > 0 ∧ s.kvalid = false
  · rw [if_pos hkey] at h
    cases h
  · rw [if_neg hkey] at h
    by_cases h0 : (input s).length > 0
    · simp only [if_pos h0] at h
      split at h <;> cases h
      refine ⟨_, rfl, ?_⟩
      simp only [length_cbcEnc] at *
      omega
    · simp only [if_neg h0] at h
      cases h
      exact ⟨[], rfl, Nat.zero_le _⟩

/-- A body of the legacy dialect is the 6-byte header and a payload of at most 127 bytes, whose length is the
header's last byte. -/
theorem frameBody_legacy {s : State} {body : List Byte} (hleg : s.frame.fleg = true)
    (h : frameBody s = .ok body) :
    ∃ c : List Byte, body = legacyPrefix s.frame c.length ++ c ∧ c.length ≤ 127 := by
  simp only [frameBody, hleg, if_true] at h
  split at h <;> cases h
  exact ⟨legacyXor (input s) s.frame.fef, by rw [length_legacyXor],
    by rw [length_legacyXor]; omega⟩

/-! ## FBUILD -/

/-- An FBUILD that ends OK outputs the frame's body and the body's CRC. -/
theorem fbuildWith_ok {c : Params} {s t : State} (h : fbuildWith c s = .next t)
    (hok : t.status = statusOk) :
    ∃ body, frameBody s = .ok body ∧ t = emitted (body ++ [crc8 body]) s := by
  unfold fbuildWith at h
  split at h
  · cases h
    exact absurd hok (ErrorCode.status_ne_ok _)
  · split at h
    · cases h
      exact absurd hok (ErrorCode.status_ne_ok _)
    · obtain ⟨-, rfl⟩ := eq_emitted_of_finishWith h
      exact ⟨_, ‹_›, rfl⟩

theorem output_emitted (bytes : List Byte) (s : State) : output (emitted bytes s) = bytes :=
  Memory.slice_store _ _ _

theorem read_obuf_emitted {bytes : List Byte} {i : Nat} {b : Byte} (h : bytes[i]? = some b)
    (s : State) : (emitted bytes s).obuf.read i = b := by
  obtain ⟨hi, rfl⟩ := List.getElem?_eq_some_iff.1 h
  have hread := Memory.read_store_inside s.obuf 0 bytes i hi
  rwa [Nat.zero_add] at hread

/-- A length below 256 is the length byte's value. -/
theorem toNat_lengthByte {n : Nat} (h : n < 256) : (BitVec.ofNat 8 n).toNat = n := by
  simpa using h

/-- Settles O55: the output is a body with its CRC, and the header's last byte is the payload's length. -/
theorem builtFramesFitTheirLengthByte : Obligations.BuiltFramesFitTheirLengthByte := by
  intro s t h hok
  obtain ⟨body, hbody, rfl⟩ := fbuildWith_ok (c := Config.params) h hok
  refine ⟨by rw [output_emitted, crc8_append_crc8], fun hleg => ?_, fun hleg => ?_⟩
  · obtain ⟨c, rfl, hc⟩ := frameBody_modern hleg hbody
    rw [read_obuf_emitted (b := BitVec.ofNat 8 c.length) rfl, toNat_lengthByte (by omega)]
    exact ⟨by simp [emitted, modernPrefix]; omega, hc⟩
  · obtain ⟨c, rfl, hc⟩ := frameBody_legacy hleg hbody
    rw [read_obuf_emitted (b := BitVec.ofNat 8 c.length) rfl, toNat_lengthByte (by omega)]
    exact ⟨by simp [emitted, legacyPrefix]; omega, hc⟩

end Sys2Proof.Machine
end

section
/-!
The assembler (30_encoding.md R75 to R77): what a source line assembles to, how a line of text splits into words,
and how a number is read back from either spelling.
-/
namespace Sys2Proof.Machine

open Sys2Proof.Claims

/-! ## Source lines to host actions -/

theorem assembleSource_eq_some {l : SourceLine} {actions : List HostAction} :
    assembleSource l = some actions ↔ l.wellFormed = true ∧ expandLine l = actions := by
  simp [assembleSource]

@[simp] theorem asByte_toNat (b : Byte) : asByte b.toNat = b := by
  simp [asByte]

/-- An assembled word is legal when its opcode is used and admits its immediate (30_encoding.md R66). -/
@[simp] theorem wellFormedWord_assembleWord (op imm : Byte) :
    wellFormedWord (assembleWord op imm) = true ↔
      unusedOpcode op = false ∧ (takesImmediate op = true ∨ imm = 0#8) := by
  simp [wellFormedWord_iff]

/-- Every word of a well-formed line is legal. -/
theorem wellFormedWord_of_mem_expandLine {l : SourceLine} {cw : CommandWord}
    (hl : l.wellFormed = true) (hcw : .issue cw ∈ expandLine l) : wellFormedWord cw = true := by
  cases l with
  | command op operand =>
    cases operand with
    | none =>
      obtain rfl : cw = assembleWord op 0#8 := by simpa [expandLine] using hcw
      simp_all [SourceLine.wellFormed, operandAdmitted]
    | some n =>
      obtain rfl : cw = assembleWord op (asByte n) := by simpa [expandLine] using hcw
      simp_all [SourceLine.wellFormed, operandAdmitted]
  | load | reset | read => simp [expandLine] at hcw
  | setkey | desc | strict | nocrc | parse =>
    obtain ⟨i, rfl⟩ : ∃ i, cw = encode i := ⟨_, by simpa [expandLine] using hcw⟩
    exact wellFormedWord_encode i

/-- A command of a row whose IMM8 is "0" assembles without an operand and not with one. -/
theorem assembleSource_command_zero {i : Instr} (h : takesImmediate i.opcode = false) :
    assembleSource (.command i.opcode none) = some [.issue (encode i)] ∧
      ∀ n, assembleSource (.command i.opcode (some n)) = none := by
  obtain ⟨-, himm, -⟩ | ⟨-, -, -, htakes⟩ := opcodeRow_opcode i
  · simp [assembleSource, SourceLine.wellFormed, operandAdmitted, expandLine, encode, himm, h]
  · simp [h] at htakes

/-- A command of a row whose IMM8 is "imm" assembles with its operand and not without one. -/
theorem assembleSource_command_imm {i : Instr} (h : takesImmediate i.opcode = true) :
    assembleSource (.command i.opcode (some i.immediate.toNat)) = some [.issue (encode i)] ∧
      assembleSource (.command i.opcode none) = none := by
  have himm : i.immediate.toNat ≤ 255 := Nat.le_of_lt_succ i.immediate.isLt
  simp [assembleSource, SourceLine.wellFormed, operandAdmitted, expandLine, encode, himm, h]

/-- Settles O58: each line is well formed, and its expansion is the row of R77. -/
theorem pseudoInstructionsExpand : Obligations.PseudoInstructionsExpand := by
  refine ⟨fun keyBytes h => ?_, fun pt pv scene gidHi gidLo oidHi oidLo => ?_, rfl, rfl,
    fun bytes h => ?_⟩
  · exact assembleSource_eq_some.2 ⟨by simp [SourceLine.wellFormed, h], rfl⟩
  · have hsplit (hi lo : Byte) : (hi.toNat * 256 + lo.toNat) / 256 = hi.toNat ∧
        (hi.toNat * 256 + lo.toNat) % 256 = lo.toNat ∧ hi.toNat * 256 + lo.toNat ≤ 65535 := by
      have hhi := hi.isLt
      have hlo := lo.isLt
      omega
    have hbyte (b : Byte) : b.toNat ≤ 255 := Nat.le_of_lt_succ b.isLt
    refine assembleSource_eq_some.2 ⟨by simp [SourceLine.wellFormed, hsplit, hbyte], ?_⟩
    simp only [expandLine, descriptorBytes, hsplit, asByte_toNat]
    rfl
  · exact assembleSource_eq_some.2 ⟨decide_eq_true h, rfl⟩

/-! ## Comments and words (30_encoding.md R75; LOG 22) -/

theorem stripComment_of_notMem {line : List Char} (h : ';' ∉ line) : stripComment line = line :=
  List.takeWhile_eq_self_iff.2 fun c hc => by
    have hne : c ≠ ';' := fun hc' => h (hc' ▸ hc)
    simpa using hne

theorem stripComment_append_comment {line : List Char} (h : ';' ∉ line) (comment : List Char) :
    stripComment (line ++ ';' :: comment) = line := by
  have hall : ∀ c ∈ line, decide (c ≠ ';') = true := fun c hc => by
    have hne : c ≠ ';' := fun hc' => h (hc' ▸ hc)
    simpa using hne
  rw [stripComment, List.takeWhile_append_of_pos hall]
  simp

/-- A comment changes nothing. -/
theorem assembleLine_append_comment {line : List Char} (h : ';' ∉ line) (comment : List Char) :
    assembleLine (line ++ ';' :: comment) = assembleLine line := by
  simp only [assembleLine, parseLine, stripComment_append_comment h, stripComment_of_notMem h]

/-- The characters of one word of a line: no separator and no start of a comment. -/
abbrev IsWord (w : List Char) : Prop :=
  w ≠ [] ∧ ∀ c ∈ w, c ≠ ' ' ∧ c ≠ '\t' ∧ c ≠ ',' ∧ c ≠ ';'

theorem IsWord.notMem_semicolon {w : List Char} (h : IsWord w) : ';' ∉ w := by
  intro hmem
  obtain ⟨-, -, -, hne⟩ := h.2 _ hmem
  exact hne rfl

/-- The splitter reads a word up to its end. -/
theorem wordsFrom_append {w : List Char} (acc rest : List Char)
    (h : ∀ c ∈ w, c ≠ ' ' ∧ c ≠ '\t' ∧ c ≠ ',' ∧ c ≠ ';') :
    wordsFrom acc (w ++ rest) = wordsFrom (w.reverse ++ acc) rest := by
  induction w generalizing acc with
  | nil => rfl
  | cons c w ih =>
    obtain ⟨hblank, htab, hcomma, -⟩ := h c List.mem_cons_self
    rw [List.cons_append, wordsFrom]
    simp only [hblank, htab, hcomma, or_self, if_false]
    rw [ih _ fun d hd => h d (List.mem_cons_of_mem c hd)]
    simp

theorem wordsFrom_word {w : List Char} (h : IsWord w) : wordsFrom [] w = [w] := by
  obtain ⟨hne, hchars⟩ := h
  have hread := wordsFrom_append [] [] hchars
  simpa [wordsFrom, hne] using hread

theorem wordsFrom_two_words {w v : List Char} (hw : IsWord w) (hv : IsWord v) :
    wordsFrom [] (w ++ ' ' :: v) = [w, v] := by
  obtain ⟨hne, hchars⟩ := hw
  rw [wordsFrom_append [] _ hchars, wordsFrom]
  simp [hne, wordsFrom_word hv]

/-! ## A line with one command -/

/-- A mnemonic alone is a command without an operand. -/
theorem assembleLine_mnemonic {w : List Char} {op : Byte} (hw : IsWord w)
    (hop : lookupName mnemonics w = some op) :
    assembleLine w = assembleSource (.command op none) := by
  simp [assembleLine, parseLine, stripComment_of_notMem hw.notMem_semicolon, wordsFrom_word hw, hop,
    parseCommand]

/-- A mnemonic and a number are a command with that operand. -/
theorem assembleLine_mnemonic_number {w v : List Char} {op : Byte} {n : Nat} (hw : IsWord w)
    (hop : lookupName mnemonics w = some op) (hv : IsWord v) (hn : parseNumber v = some n) :
    assembleLine (w ++ ' ' :: v) = assembleSource (.command op (some n)) := by
  have hcomment : ';' ∉ w ++ ' ' :: v := by
    simp [hw.notMem_semicolon, hv.notMem_semicolon]
  simp [assembleLine, parseLine, stripComment_of_notMem hcomment, wordsFrom_two_words hw hv, hop,
    parseCommand, hn]

/-- What a text assembles to is nothing, or what its source line does. -/
theorem assembleLine_eq_some {line : List Char} {actions : List HostAction}
    (h : assembleLine line = some actions) :
    actions = [] ∨ ∃ l, assembleSource l = some actions := by
  unfold assembleLine at h
  split at h
  · cases h
  · cases h
    exact .inl rfl
  · exact .inr ⟨_, h⟩

/-! ## The mnemonics (30_encoding.md R64) -/

theorem isWord_mnemonicText (i : Instr) : IsWord (mnemonicText i).toList := by
  cases i <;> simp [IsWord, mnemonicText]

theorem lookupName_mnemonicText (i : Instr) :
    lookupName mnemonics (mnemonicText i).toList = some i.opcode := by
  cases i <;> simp [lookupName, mnemonics, mnemonicText, Instr.opcode]

/-- What a lookup finds stands in the table. -/
theorem mem_of_lookupName {α : Type} {table : List (String × α)} {name : String} {v : α}
    (h : lookupName table name.toList = some v) : (name, v) ∈ table := by
  induction table with
  | nil => cases h
  | cons entry rest ih =>
    obtain ⟨n, u⟩ := entry
    rw [lookupName] at h
    split at h
    · cases h
      obtain rfl : n = name := String.toList_inj.1 ‹_›
      exact List.mem_cons_self
    · exact List.mem_cons_of_mem _ (ih h)

/-! ## Numbers (30_encoding.md R75) -/

/-- A hexadecimal digit as `hexText` writes it. -/
def hexChar (n : Nat) : Char := "0123456789abcdef".toList.getD n '0'

theorem hexText_eq (b : Byte) :
    hexText b = ['0', 'x', hexChar (b.toNat / 16), hexChar (b.toNat % 16)] := rfl

theorem hexDigit_hexChar : ∀ n < 16, hexDigit (hexChar n) = some n := by decide

/-- No separator is a hexadecimal digit. -/
theorem ne_separator_of_hexDigit {c : Char} {n : Nat} (h : hexDigit c = some n) :
    c ≠ ' ' ∧ c ≠ '\t' ∧ c ≠ ',' ∧ c ≠ ';' := by
  refine ⟨?_, ?_, ?_, ?_⟩ <;> rintro rfl <;> simp [hexDigit] at h

theorem isWord_hexText (b : Byte) : IsWord (hexText b) := by
  have hb := b.isLt
  have hhi := ne_separator_of_hexDigit (hexDigit_hexChar (b.toNat / 16) (by omega))
  have hlo := ne_separator_of_hexDigit (hexDigit_hexChar (b.toNat % 16) (by omega))
  rw [hexText_eq]
  simp_all [IsWord]

theorem parseNumber_hexText (b : Byte) : parseNumber (hexText b) = some b.toNat := by
  have hb := b.isLt
  have hhi := hexDigit_hexChar (b.toNat / 16) (by omega)
  have hlo := hexDigit_hexChar (b.toNat % 16) (by omega)
  simp only [hexText_eq, parseNumber, digitsFrom, hhi, hlo]
  congr 1
  omega

theorem decimalDigit_of_isDigit {c : Char} (h : c.isDigit = true) :
    decimalDigit c = some (c.toNat - '0'.toNat) :=
  if_pos (Char.isDigit_iff_toNat.1 h)

/-- Decimal digits are read as the library reads them. -/
theorem digitsFrom_decimal {cs : List Char} (acc : Nat) (h : ∀ c ∈ cs, c.isDigit = true) :
    digitsFrom 10 decimalDigit acc cs = some (Nat.ofDigitChars 10 cs acc) := by
  induction cs generalizing acc with
  | nil => rfl
  | cons c cs ih =>
    rw [digitsFrom, decimalDigit_of_isDigit (h c List.mem_cons_self), Nat.ofDigitChars_cons,
      Nat.mul_comm 10 acc]
    exact ih _ fun d hd => h d (List.mem_cons_of_mem c hd)

/-- A string of decimal digits is no hexadecimal number. -/
theorem parseNumber_decimal {cs : List Char} (hne : cs ≠ []) (h : ∀ c ∈ cs, c.isDigit = true) :
    parseNumber cs = some (Nat.ofDigitChars 10 cs 0) := by
  unfold parseNumber
  split
  · exact absurd rfl hne
  · exact absurd (h 'x' (by simp)) (by decide)
  · exact digitsFrom_decimal 0 h

theorem isDigit_of_mem_decimalText {b : Byte} {c : Char} (h : c ∈ decimalText b) :
    c.isDigit = true :=
  Nat.isDigit_of_mem_toDigits (by decide) (by decide) h

theorem decimalText_ne_nil (b : Byte) : decimalText b ≠ [] := Nat.toDigits_ne_nil

theorem parseNumber_decimalText (b : Byte) : parseNumber (decimalText b) = some b.toNat := by
  rw [parseNumber_decimal (decimalText_ne_nil b) fun c hc => isDigit_of_mem_decimalText hc]
  exact congrArg some (Nat.ofDigitChars_toDigits (by decide) (by decide))

theorem isWord_decimalText (b : Byte) : IsWord (decimalText b) := by
  refine ⟨decimalText_ne_nil b, fun c hc => ?_⟩
  have hdigit := isDigit_of_mem_decimalText hc
  refine ⟨?_, ?_, ?_, ?_⟩ <;> rintro rfl <;> revert hdigit <;> decide

/-! ## A command's line of text -/

/-- The text of a command whose row says "0" (30_encoding.md R75). -/
theorem assembleLine_command_zero {i : Instr} (h : takesImmediate i.opcode = false) :
    assembleLine (mnemonicText i).toList = some [.issue (encode i)] ∧
      ∀ b : Byte, assembleLine ((mnemonicText i).toList ++ ' ' :: hexText b) = none := by
  obtain ⟨hnone, hsome⟩ := assembleSource_command_zero h
  have hw := isWord_mnemonicText i
  have hop := lookupName_mnemonicText i
  refine ⟨(assembleLine_mnemonic hw hop).trans hnone, fun b => ?_⟩
  rw [assembleLine_mnemonic_number hw hop (isWord_hexText b) (parseNumber_hexText b), hsome]

/-- The text of a command whose row says "imm" (30_encoding.md R75). -/
theorem assembleLine_command_imm {i : Instr} (h : takesImmediate i.opcode = true) :
    assembleLine ((mnemonicText i).toList ++ ' ' :: hexText i.immediate) =
        some [.issue (encode i)] ∧
      assembleLine ((mnemonicText i).toList ++ ' ' :: decimalText i.immediate) =
        some [.issue (encode i)] ∧
      assembleLine (mnemonicText i).toList = none := by
  obtain ⟨hsome, hnone⟩ := assembleSource_command_imm h
  have hw := isWord_mnemonicText i
  have hop := lookupName_mnemonicText i
  refine ⟨?_, ?_, (assembleLine_mnemonic hw hop).trans hnone⟩
  · rw [assembleLine_mnemonic_number hw hop (isWord_hexText _) (parseNumber_hexText _), hsome]
  · rw [assembleLine_mnemonic_number hw hop (isWord_decimalText _) (parseNumber_decimalText _),
      hsome]

/-- Whatever assembles from a parsed line holds legal words only. -/
theorem wellFormedWord_of_assembleSource {l : SourceLine} {actions : List HostAction}
    {cw : CommandWord} (h : assembleSource l = some actions) (hcw : .issue cw ∈ actions) :
    wellFormedWord cw = true := by
  obtain ⟨hl, rfl⟩ := assembleSource_eq_some.1 h
  exact wellFormedWord_of_mem_expandLine hl hcw

/-- Settles O57, clause by clause: the command's text, comments, and the words of a line of text and of a parsed
line. -/
theorem assembledLinesAreLegalWords : Obligations.AssembledLinesAreLegalWords := by
  refine ⟨fun i => ⟨mem_of_lookupName (lookupName_mnemonicText i), assembleLine_command_zero,
    assembleLine_command_imm⟩, fun line comment h => assembleLine_append_comment h comment,
    fun line actions cw h hcw => ?_, fun i => ?_,
    fun l actions cw => wellFormedWord_of_assembleSource⟩
  · obtain rfl | ⟨l, hl⟩ := assembleLine_eq_some h
    · cases hcw
    · exact wellFormedWord_of_assembleSource hl hcw
  · cases h : takesImmediate i.opcode
    · exact (assembleSource_command_zero h).1
    · exact (assembleSource_command_imm h).1

end Sys2Proof.Machine
end

section
/-!
CRC8 (40_crc8.md): the table against its generator, a change of one byte, and the two commands. The lemmas on
the end of a command are for all parameters.
-/
namespace Sys2Proof.Machine

open Sys2Proof.Claims

/-! ## The table and its generator (40_crc8.md R87, R88) -/

/-- Settles O28, by evaluation of both sides at each index. -/
theorem crcTableEqualsItsGenerator : Obligations.CrcTableEqualsItsGenerator := by
  unfold Obligations.CrcTableEqualsItsGenerator
  decide +kernel

/-- Bit 7 of 0x8C is set, so the bit a shift drops comes back as the top bit. -/
theorem msb_crc8Shift (c : Byte) : (crc8Shift c).msb = c.getLsbD 0 := by
  unfold crc8Shift
  split <;> simp_all [BitVec.msb_eq_getLsbD_last]

/-- A shift loses nothing: its top bit gives the bit dropped, and with it the polynomial is taken off. -/
theorem crc8Shift_injective : Function.Injective crc8Shift := by
  intro a b h
  have hlow : a.getLsbD 0 = b.getLsbD 0 := by rw [← msb_crc8Shift, ← msb_crc8Shift, h]
  have hhigh : a >>> 1 = b >>> 1 := by
    unfold crc8Shift at h
    rw [hlow] at h
    split at h
    · exact BitVec.xor_left_inj _ |>.1 h
    · exact h
  apply BitVec.eq_of_getLsbD_eq
  rintro (_ | i) -
  · exact hlow
  · simpa [Nat.add_comm] using congrArg (BitVec.getLsbD · i) hhigh

/-- The 256 entries are distinct (40_crc8.md R92): an entry is eight shifts of its index. -/
theorem crc8Table_injective : Function.Injective crc8Table := by
  have heq : crc8Table = crc8Shift^[8] := funext crcTableEqualsItsGenerator
  rw [heq]
  exact crc8Shift_injective.iterate 8

/-! ## A change of one byte (40_crc8.md R92) -/

/-- The lookup loop of `crc8`, from any CRC (40_crc8.md R89). -/
def crc8From (crc : Byte) (s : List Byte) : Byte := s.foldl (fun crc b => crc8Table (crc ^^^ b)) crc

theorem crc8_append (p q : List Byte) : crc8 (p ++ q) = crc8From (crc8 p) q := List.foldl_append

/-- Equal bytes keep different CRCs different. -/
theorem crc8From_injective (q : List Byte) : Function.Injective (crc8From · q) := by
  induction q with
  | nil => exact Function.injective_id
  | cons x q ih => exact fun c d h => BitVec.xor_left_inj x |>.1 (crc8Table_injective (ih h))

/-- Settles O30: the bytes that differ give different CRCs, and the bytes after them keep these different. -/
theorem crcDetectsAOneByteChange : Obligations.CrcDetectsAOneByteChange := by
  intro p q a b hab h
  rw [crc8_append, crc8_append] at h
  have hstep : crc8Table (crc8 p ^^^ a) = crc8Table (crc8 p ^^^ b) := crc8From_injective q h
  exact hab (BitVec.xor_right_inj _ |>.1 (crc8Table_injective hstep))

/-! ## The two commands (40_crc8.md R90, R91) -/

/-- An output writes OBUF, OLEN and STATUS only, and OBUF only below the new OLEN. -/
theorem okWithOutput_emitted (bytes : List Byte) (s : State) :
    OkWithOutput bytes s (emitted bytes s) :=
  ⟨⟨rfl, rfl⟩,
    ⟨output_emitted bytes s, rfl, fun _ ha => Memory.read_store_above _ _ _ _ (by simpa using ha)⟩,
    ⟨⟨rfl, fun _ => rfl⟩, ⟨rfl, rfl⟩, rfl, rfl, rfl⟩, rfl, rfl⟩

/-- A command that ends in an output that fits OBUF completes with that output, and writes nothing else. -/
theorem finishWith_okWithOutput {c : Params} {bytes : List Byte} (s : State)
    (h : bytes.length ≤ c.obufCap) :
    ∃ t, finishWith c bytes s = .next t ∧ OkWithOutput bytes s t :=
  ⟨emitted bytes s, (finishWith_eq_next c bytes s _).2 ⟨h, rfl⟩, okWithOutput_emitted bytes s⟩

theorem exec_crc8 (s : State) :
    exec .crc8 s = finishWith Config.params [crc8 (input s)] s := rfl

theorem exec_crclut (imm : Byte) (s : State) :
    exec (.crclut imm) s = finishWith Config.params [crc8Table imm] s := rfl

/-- Settles O29: either command ends in one byte of output, which fits OBUF. -/
theorem crc8AndCrclutComplete : Obligations.Crc8AndCrclutComplete := by
  refine ⟨zeroRow_of_opcodeRow rfl, immRow_of_opcodeRow rfl, fun s imm => ⟨?_, ?_⟩, crc8_append_crc8⟩
  · rw [exec_crc8]
    exact finishWith_okWithOutput s (show 1 ≤ Config.params.obufCap by decide)
  · rw [exec_crclut]
    exact finishWith_okWithOutput s (show 1 ≤ Config.params.obufCap by decide)

end Sys2Proof.Machine
end

section
/-!
The legacy cipher (41_legacy_cipher.md): the cipher as its own inverse, the state each of its four commands ends
in, and what a run of an encoding, MOVOI and a decoding returns.
-/
namespace Sys2Proof.Machine

open Sys2Proof.Claims

/-! ## The cipher (41_legacy_cipher.md R94) -/

/-- The cipher as the statements write it out: reducing the length modulo 256 does not change its low byte. -/
theorem xorWith_eq_legacyXor (k : Byte) (p : List Byte) : xorWith k p = legacyXor p k := by
  have hlen : BitVec.ofNat 8 (p.length % 256) = BitVec.ofNat 8 p.length :=
    BitVec.eq_of_toNat_eq (by simp)
  rw [xorWith, legacyXor, crcSeed, hlen]

/-- crcSeed comes from the length alone, which the cipher keeps. -/
@[simp] theorem crcSeed_legacyXor (p : List Byte) (k : Byte) : crcSeed (legacyXor p k) = crcSeed p := by
  rw [crcSeed, length_legacyXor, crcSeed]

/-- The same key byte and the same crcSeed are XORed in twice (41_legacy_cipher.md R99). -/
theorem legacyXor_legacyXor (p : List Byte) (k : Byte) : legacyXor (legacyXor p k) k = p := by
  have hbyte : ∀ b : Byte, k ^^^ (k ^^^ b ^^^ crcSeed p) ^^^ crcSeed p = b := fun b => by
    rw [← BitVec.xor_assoc, ← BitVec.xor_assoc, BitVec.xor_self, BitVec.zero_xor, BitVec.xor_assoc,
      BitVec.xor_self, BitVec.xor_zero]
  calc legacyXor (legacyXor p k) k
      = (p.map fun b => k ^^^ b ^^^ crcSeed p).map fun b => k ^^^ b ^^^ crcSeed p := by
        rw [legacyXor, crcSeed_legacyXor, legacyXor]
    _ = p := by simp [Function.comp_def, hbyte]

/-- The output of LENCR for an input and a seed, which is itself not encoded (30_encoding.md R73). -/
def encodedWithSeed (p : List Byte) (seed : Byte) : List Byte := legacyXor p seed ++ [seed]

@[simp] theorem length_encodedWithSeed (p : List Byte) (seed : Byte) :
    (encodedWithSeed p seed).length = p.length + 1 := by
  simp [encodedWithSeed]

/-! ## The four commands -/

/-- A command that ends in an output that fits OBUF ends in the state with that output. -/
theorem finishWith_eq_emitted {c : Params} {bytes : List Byte} (s : State)
    (h : bytes.length ≤ c.obufCap) : finishWith c bytes s = .next (emitted bytes s) :=
  (finishWith_eq_next c bytes s _).2 ⟨h, rfl⟩

/-- IBUF_CAP bytes and a seed leave room in OBUF (00_scope.md R6). -/
theorem le_obufCap {n : Nat} (h : n ≤ 257) : n ≤ Config.params.obufCap :=
  h.trans (by decide)

/-- LENC (41_legacy_cipher.md R95). -/
theorem exec_lenc (k : Byte) {s : State} (h : s.ilen ≤ 256) :
    exec (.lenc k) s = .next (emitted (legacyXor (input s) k) s) :=
  finishWith_eq_emitted s (le_obufCap (by rw [length_legacyXor, length_input]; omega))

/-- LDEC computes exactly what LENC computes (41_legacy_cipher.md R97). -/
theorem exec_ldec (k : Byte) (s : State) : exec (.ldec k) s = exec (.lenc k) s := rfl

/-- LENCR, with the seed of the next draw (41_legacy_cipher.md R96). -/
theorem exec_lencr {s : State} (h : s.ilen ≤ 256) :
    exec .lencr s =
      .next (emitted (encodedWithSeed (input s) (seedOf (nextDraw s))) (consumeDraw s)) :=
  finishWith_eq_emitted (bytes := encodedWithSeed (input s) _) (consumeDraw s) <| le_obufCap <| by
    rw [length_encodedWithSeed, length_input]
    omega

/-- LDECS of an empty input (41_legacy_cipher.md R98). -/
theorem exec_ldecs_empty {s : State} (h : s.ilen = 0) :
    exec .ldecs s = .next (raise .invalidLength s) :=
  if_pos h

/-- LDECS: the last input byte is the key, the bytes before it the ciphertext (41_legacy_cipher.md R98). -/
theorem exec_ldecs {s : State} (h0 : s.ilen ≠ 0) (h : s.ilen ≤ 256) :
    exec .ldecs s = .next (emitted
      (legacyXor ((input s).take (s.ilen - 1)) (inByte s (s.ilen - 1))) s) := by
  have hcipher : (input s).take (s.ilen - 1) = inputSlice s 0 (s.ilen - 1) :=
    byteRange_input s 0 (s.ilen - 1) (Nat.sub_le _ _)
  rw [hcipher]
  exact (if_neg h0).trans <| finishWith_eq_emitted s <| le_obufCap <| by
    rw [length_legacyXor, length_inputSlice]
    omega

/-- LDECS of an encoded string with its seed appended gives the string (41_legacy_cipher.md R99). -/
theorem exec_ldecs_of_encoded {s : State} {p : List Byte} {seed : Byte}
    (hin : input s = encodedWithSeed p seed) (h : p.length ≤ 255) :
    exec .ldecs s = .next (emitted p s) := by
  have hlen : s.ilen = p.length + 1 := by simpa using congrArg List.length hin
  have hpos : s.ilen - 1 = p.length := by omega
  have hcipher : (input s).take p.length = legacyXor p seed := by
    simp [hin, encodedWithSeed]
  have hseed : inByte s p.length = seed := by
    rw [← byteAt_input_eq_inByte (by omega), hin]
    simp [byteAt, encodedWithSeed]
  rw [exec_ldecs (by omega) (by omega), hpos, hcipher, hseed, legacyXor_legacyXor]

/-- Settles O31: both commands end in the output of the cipher, which fits OBUF. -/
theorem lencAndLdecComplete : Obligations.LencAndLdecComplete := by
  refine ⟨immRow_of_opcodeRow rfl, immRow_of_opcodeRow rfl, fun k s h => ?_⟩
  have hlenc : ∃ t, exec (.lenc k) s = .next t ∧ OkWithOutput (xorWith k (input s)) s t := by
    rw [xorWith_eq_legacyXor]
    exact ⟨_, exec_lenc k h, okWithOutput_emitted _ s⟩
  exact ⟨hlenc, by rwa [exec_ldec]⟩

/-- Settles O32: the seed is that of the next draw, and only the draw count differs from an output on `s`. -/
theorem lencrCompletes : Obligations.LencrCompletes := by
  refine ⟨zeroRow_of_opcodeRow rfl, fun s h => ⟨_, seedOf (nextDraw s), exec_lencr h, ?_⟩⟩
  obtain ⟨hlow, hhigh⟩ := seedOf_bounds (nextDraw s)
  obtain ⟨hends, hout, hkeeps, hframe, hdraws⟩ :=
    okWithOutput_emitted (encodedWithSeed (input s) (seedOf (nextDraw s))) (consumeDraw s)
  rw [xorWith_eq_legacyXor]
  exact ⟨hlow, hhigh, hends, hout, hkeeps, hframe, hdraws⟩

/-- Settles O33, by whether the input is empty. -/
theorem ldecsCompletes : Obligations.LdecsCompletes := by
  refine ⟨zeroRow_of_opcodeRow rfl, fun s => ⟨fun hpos h => ?_, fun h0 => ?_⟩⟩
  · rw [xorWith_eq_legacyXor]
    exact ⟨_, exec_ldecs (by omega) h, okWithOutput_emitted _ s⟩
  · exact ⟨_, exec_ldecs_empty h0, errorOnly_raise .invalidLength s⟩

/-! ## Runs of commands (70_reset_and_hazards.md R177) -/

/-- A run that begins with a command's word: the command, then the run of the other actions, with the
command's STATUS put before theirs. -/
theorem run_issue_encode {i : Instr} {rest : List HostAction} {s t u : State}
    {codes : List (BitVec 8)} (hi : exec i s = .next t) (hrest : run rest t = some (u, codes)) :
    run (.issue (encode i) :: rest) s = some (u, t.status :: codes) := by
  have hperform : perform (.issue (encode i)) s = .next t :=
    (issueWord_of_decode (decode_encode i) s).trans hi
  simp only [run, hperform, hrest]
  rfl

/-- MOVOI after an output of at most IBUF_CAP bytes makes it the input (44_control.md R142). -/
theorem exec_movoi_emitted {bytes : List Byte} (s : State) (h : bytes.length ≤ 256) :
    exec .movoi (emitted bytes s) = .next (finish (taken bytes (emitted bytes s))) := by
  have hmove := movoiWith_fits Config.params (emitted bytes s) h
  rwa [output_emitted] at hmove

/-- The run of an encoding, MOVOI and a decoding from `s`: all three end OK, and the output is `p`. -/
def RoundTripReturns (enc dec : Instr) (s : State) (p : List Byte) : Prop :=
  ∃ (t : State) (codes : List (BitVec 8)),
    run [.issue (encode enc), .issue (encode .movoi), .issue (encode dec)] s = some (t, codes) ∧
      codes = [0x00#8, 0x00#8, 0x00#8] ∧ output t = p

/-- An encoding that outputs `bytes`, MOVOI, and a decoding that outputs `p` from every state with the input
`bytes`: the run ends with the output `p`. -/
theorem roundTripReturns_of_exec {enc dec : Instr} {bytes p : List Byte} {s v : State}
    (henc : exec enc s = .next (emitted bytes v)) (hfits : bytes.length ≤ 256)
    (hdec : ∀ u, input u = bytes → exec dec u = .next (emitted p u)) :
    RoundTripReturns enc dec s p := by
  obtain ⟨hin, -⟩ := input_taken bytes (emitted bytes v)
  have hlast := run_issue_encode (rest := []) (hdec (finish (taken bytes (emitted bytes v))) hin) rfl
  have hmove := run_issue_encode (exec_movoi_emitted v hfits) hlast
  exact ⟨_, _, run_issue_encode henc hmove, rfl, output_emitted p _⟩

/-- LENC, MOVOI and LDEC with the same key return the input (41_legacy_cipher.md R99). -/
theorem lenc_ldec_roundTrip {s : State} (k : Byte) (h : s.ilen ≤ 256) :
    RoundTripReturns (.lenc k) (.ldec k) s (input s) := by
  refine roundTripReturns_of_exec (exec_lenc k h) (by simpa using h) fun u hu => ?_
  have hilen : u.ilen = s.ilen := by simpa using congrArg List.length hu
  rw [exec_ldec, exec_lenc k (hilen ▸ h), hu, legacyXor_legacyXor]

/-- LENCR, MOVOI and LDECS return an input that leaves room for the seed (41_legacy_cipher.md R99). -/
theorem lencr_ldecs_roundTrip {s : State} (h : s.ilen ≤ 255) :
    RoundTripReturns .lencr .ldecs s (input s) := by
  have hfits : (encodedWithSeed (input s) (seedOf (nextDraw s))).length ≤ 256 := by
    rw [length_encodedWithSeed, length_input]
    omega
  exact roundTripReturns_of_exec (exec_lencr (by omega)) hfits fun _ hu =>
    exec_ldecs_of_encoded hu (by simpa using h)

/-- LENCR of a full input leaves an output one byte too long for MOVOI (44_control.md R142). -/
theorem run_lencr_movoi_full {s : State} (h : s.ilen = 256) :
    ∃ t, run [.issue (encode .lencr), .issue (encode .movoi)] s = some (t, [0x00#8, 0x02#8]) := by
  have hlencr := exec_lencr h.le
  have hlong : Config.ibufCap < (encodedWithSeed (input s) (seedOf (nextDraw s))).length := by
    simp [h, Config.ibufCap]
  have hmove := run_issue_encode (i := .movoi) (rest := [])
    (movoiWith_overlong Config.params (emitted _ (consumeDraw s)) hlong) rfl
  exact ⟨_, run_issue_encode hlencr hmove⟩

/-- Settles O34: the cipher is its own inverse, and the three runs are those above. -/
theorem legacyRoundTripsReturnTheInput : Obligations.LegacyRoundTripsReturnTheInput :=
  ⟨legacyXor_legacyXor, fun _ k =>
    ⟨lenc_ldec_roundTrip k, lencr_ldecs_roundTrip, run_lencr_movoi_full⟩⟩

end Sys2Proof.Machine
end

section
/-!
The AES block cipher (42_aes.md section 1): each round transformation is undone by its inverse, and so
decryption undoes encryption, round by round, under every key.
-/
namespace Sys2Proof.Machine

/-! ## SubBytes and ShiftRows (42_aes.md R106, R107) -/

/-- Settles O38, by evaluation of both tables at each index. -/
theorem inverseSboxInvertsSbox : Obligations.InverseSboxInvertsSbox := by
  unfold Obligations.InverseSboxInvertsSbox
  decide +kernel

@[simp] theorem invSubBytes_subBytes (st : Block) : invSubBytes (subBytes st) = st := by
  simp only [invSubBytes, subBytes, Block.mapColumns, Column.map, inverseSboxInvertsSbox _]

@[simp] theorem Block.at_ofEntries (f : Fin 4 → Fin 4 → Byte) (r c : Fin 4) :
    Block.at (Block.ofEntries f) r c = f r c := by
  fin_cases r <;> fin_cases c <;> rfl

@[simp] theorem Block.ofEntries_at (st : Block) : Block.ofEntries (Block.at st) = st := rfl

/-- A row rotated by its number one way, then the other. -/
@[simp] theorem invShiftRows_shiftRows (st : Block) : invShiftRows (shiftRows st) = st := by
  simp [invShiftRows, shiftRows]

/-! ## MixColumns (42_aes.md R102, R106, R107) -/

theorem gmulFrom_xor_right (a x y : Byte) (i n : Nat) :
    gmulFrom a (x ^^^ y) i n = gmulFrom a x i n ^^^ gmulFrom a y i n := by
  induction n generalizing a i with
  | zero => simp [gmulFrom]
  | succ n ih =>
    have hbit : (if (x ^^^ y).getLsbD i then a else 0#8) =
        (if x.getLsbD i then a else 0#8) ^^^ (if y.getLsbD i then a else 0#8) := by
      rw [BitVec.getLsbD_xor]
      cases x.getLsbD i <;> cases y.getLsbD i <;> simp
    simp only [gmulFrom, ih, hbit]
    ac_rfl

/-- The product distributes over the field's sum, XOR. -/
theorem gmul_xor_right (a x y : Byte) : gmul a (x ^^^ y) = gmul a x ^^^ gmul a y :=
  gmulFrom_xor_right a x y 0 8

/-- Row 0 of the inverse matrix times the matrix, entry by entry: 1, 0, 0, 0. -/
theorem invMixRow_mul_mixMatrix (x : Byte) :
    gmul 14#8 (gmul 2#8 x) ^^^ gmul 11#8 x ^^^ gmul 13#8 x ^^^ gmul 9#8 (gmul 3#8 x) = x ∧
    gmul 14#8 (gmul 3#8 x) ^^^ gmul 11#8 (gmul 2#8 x) ^^^ gmul 13#8 x ^^^ gmul 9#8 x = 0#8 ∧
    gmul 14#8 x ^^^ gmul 11#8 (gmul 3#8 x) ^^^ gmul 13#8 (gmul 2#8 x) ^^^ gmul 9#8 x = 0#8 ∧
    gmul 14#8 x ^^^ gmul 11#8 x ^^^ gmul 13#8 (gmul 3#8 x) ^^^ gmul 9#8 (gmul 2#8 x) = 0#8 := by
  revert x
  decide +kernel

theorem invMixColumn_mixColumn_r0 (a : Column) : (invMixColumn (mixColumn a)).r0 = a.r0 := by
  obtain ⟨h0, -⟩ := invMixRow_mul_mixMatrix a.r0
  obtain ⟨-, h1, -⟩ := invMixRow_mul_mixMatrix a.r1
  obtain ⟨-, -, h2, -⟩ := invMixRow_mul_mixMatrix a.r2
  obtain ⟨-, -, -, h3⟩ := invMixRow_mul_mixMatrix a.r3
  calc (invMixColumn (mixColumn a)).r0
      = (gmul 14#8 (gmul 2#8 a.r0) ^^^ gmul 11#8 a.r0 ^^^ gmul 13#8 a.r0 ^^^
          gmul 9#8 (gmul 3#8 a.r0)) ^^^
        (gmul 14#8 (gmul 3#8 a.r1) ^^^ gmul 11#8 (gmul 2#8 a.r1) ^^^ gmul 13#8 a.r1 ^^^
          gmul 9#8 a.r1) ^^^
        (gmul 14#8 a.r2 ^^^ gmul 11#8 (gmul 3#8 a.r2) ^^^ gmul 13#8 (gmul 2#8 a.r2) ^^^
          gmul 9#8 a.r2) ^^^
        (gmul 14#8 a.r3 ^^^ gmul 11#8 a.r3 ^^^ gmul 13#8 (gmul 3#8 a.r3) ^^^
          gmul 9#8 (gmul 2#8 a.r3)) := by
        simp only [invMixColumn, mixColumn, gmul_xor_right]
        ac_rfl
    _ = a.r0 := by simp [h0, h1, h2, h3]

/-- A column with its rows moved up by one, the top row to the bottom. -/
def Column.rotate (a : Column) : Column := ⟨a.r1, a.r2, a.r3, a.r0⟩

/-- The matrix of MixColumns is circulant. -/
theorem mixColumn_rotate (a : Column) : mixColumn (Column.rotate a) = Column.rotate (mixColumn a) := by
  simp only [mixColumn, Column.rotate, Column.mk.injEq]
  refine ⟨?_, ?_, ?_, ?_⟩ <;> ac_rfl

/-- The matrix of InvMixColumns is circulant. -/
theorem invMixColumn_rotate (a : Column) :
    invMixColumn (Column.rotate a) = Column.rotate (invMixColumn a) := by
  simp only [invMixColumn, Column.rotate, Column.mk.injEq]
  refine ⟨?_, ?_, ?_, ?_⟩ <;> ac_rfl

/-- Row 0 of each of the column's four rotations. -/
@[simp] theorem invMixColumn_mixColumn (a : Column) : invMixColumn (mixColumn a) = a := by
  have hrot : ∀ b, invMixColumn (mixColumn (Column.rotate b)) =
      Column.rotate (invMixColumn (mixColumn b)) := fun b => by
    rw [mixColumn_rotate, invMixColumn_rotate]
  have h0 := invMixColumn_mixColumn_r0 a
  have h1 := invMixColumn_mixColumn_r0 (Column.rotate a)
  have h2 := invMixColumn_mixColumn_r0 (Column.rotate (Column.rotate a))
  have h3 := invMixColumn_mixColumn_r0 (Column.rotate (Column.rotate (Column.rotate a)))
  rw [hrot] at h1
  rw [hrot, hrot] at h2
  rw [hrot, hrot, hrot] at h3
  exact (Column.mk.injEq ..).mpr ⟨h0, h1, h2, h3⟩

@[simp] theorem invMixColumns_mixColumns (st : Block) : invMixColumns (mixColumns st) = st := by
  simp only [invMixColumns, mixColumns, Block.mapColumns, invMixColumn_mixColumn]

/-! ## Rounds (42_aes.md R109, R110) -/

@[simp] theorem addRoundKey_addRoundKey (st rk : Block) : addRoundKey (addRoundKey st rk) rk = st :=
  Block.xor_xor_cancel st rk

/-- The unkeyed first half of an encryption round. -/
def shiftSub (st : Block) : Block := shiftRows (subBytes st)

/-- The unkeyed first half of a decryption round. -/
def invShiftSub (st : Block) : Block := invSubBytes (invShiftRows st)

@[simp] theorem invShiftSub_shiftSub (st : Block) : invShiftSub (shiftSub st) = st := by
  simp [invShiftSub, shiftSub]

/-- Round `j` of encryption, for j = 1..9 (42_aes.md R109). -/
def encRound (k st : Block) (j : Nat) : Block := addRoundKey (mixColumns (shiftSub st)) (roundKey k j)

/-- Round `j` of decryption, for j = 9..1 (42_aes.md R110). -/
def decRound (k st : Block) (j : Nat) : Block :=
  invMixColumns (addRoundKey (invShiftSub st) (roundKey k j))

theorem aesEnc_eq_rounds (b k : Block) :
    aesEnc b k = addRoundKey
      (shiftSub ((List.range' 1 9).foldl (encRound k) (addRoundKey b (roundKey k 0))))
      (roundKey k 10) := rfl

theorem aesDec_eq_rounds (b k : Block) :
    aesDec b k = addRoundKey
      (invShiftSub ((List.range' 1 9).reverse.foldl (decRound k) (addRoundKey b (roundKey k 10))))
      (roundKey k 0) := rfl

/-- The rounds are half a round apart: round `j` of decryption leads from `shiftSub` of the state after round
`j` of encryption to `shiftSub` of the state before it. -/
theorem decRound_encRound (k st : Block) (j : Nat) :
    decRound k (shiftSub (encRound k st j)) j = shiftSub st := by
  simp [decRound, encRound]

/-- The rounds undone in reverse order. -/
theorem foldl_decRound_foldl_encRound (k st : Block) (rounds : List Nat) :
    rounds.reverse.foldl (decRound k) (shiftSub (rounds.foldl (encRound k) st)) = shiftSub st := by
  induction rounds generalizing st with
  | nil => rfl
  | cons j rounds ih =>
    rw [List.reverse_cons, List.foldl_append, List.foldl_cons (l := rounds), ih]
    exact decRound_encRound k st j

/-- Settles O39: the two last key additions cancel, then the nine rounds, then the two first. -/
theorem aesDecInvertsAesEnc : Obligations.AesDecInvertsAesEnc := by
  intro b k
  rw [aesDec_eq_rounds, aesEnc_eq_rounds, addRoundKey_addRoundKey, foldl_decRound_foldl_encRound,
    invShiftSub_shiftSub, addRoundKey_addRoundKey]

end Sys2Proof.Machine
end

section
/-!
PKCS#7 padding and CBC with IV = key (42_aes.md section 2).
-/
namespace Sys2Proof.Machine

/-! ## Padding (42_aes.md R111, R112) -/

theorem getD_last_append_replicate (p : List Byte) {q : Nat} (b : Byte) (h : 1 ≤ q) :
    (p ++ List.replicate q b).getD ((p ++ List.replicate q b).length - 1) 0#8 = b := by
  have hlast : (p ++ List.replicate q b).length - 1 = p.length + (q - 1) := by
    rw [List.length_append, List.length_replicate]
    omega
  rw [hlast, List.getD_append_right _ _ _ _ (Nat.le_add_right _ _), Nat.add_sub_cancel_left,
    List.getD_replicate _ (by omega)]

/-- What `unpad` accepts, for strings of any length: those that end in q copies of q. -/
theorem unpad_eq_some_iff (d p : List Byte) :
    unpad d = some p ↔ ∃ q, 1 ≤ q ∧ q ≤ 16 ∧ d = p ++ List.replicate q (BitVec.ofNat 8 q) := by
  constructor
  · intro h
    simp only [unpad] at h
    split_ifs at h with hq hcopies
    cases h
    refine ⟨(d.getD (d.length - 1) 0#8).toNat, by omega, by omega, ?_⟩
    rw [BitVec.ofNat_toNat, BitVec.setWidth_eq, ← not_not.1 hcopies, List.take_append_drop]
  · rintro ⟨q, h1, h16, rfl⟩
    have hq : (BitVec.ofNat 8 q).toNat = q := toNat_lengthByte (by omega)
    have hstart : (p ++ List.replicate q (BitVec.ofNat 8 q)).length - q = p.length := by simp
    simp only [unpad, getD_last_append_replicate p _ h1, hq, hstart]
    rw [if_neg (by omega), if_neg (by simp), List.take_left]

/-- Settles O41, which is the case of strings of at least one block. -/
theorem unpadAcceptsExactlyPaddedStrings : Obligations.UnpadAcceptsExactlyPaddedStrings :=
  fun d p _ => unpad_eq_some_iff d p

theorem unpad_pad (p : List Byte) : unpad (pad p) = some p :=
  (unpad_eq_some_iff _ _).2 ⟨16 - p.length % 16, by omega, by omega, rfl⟩

/-! ## Strings and their blocks -/

@[simp] theorem Block.ofBytes_toBytes_append (b : Block) (rest : List Byte) :
    Block.ofBytes (Block.toBytes b ++ rest) = b := rfl

/-- A block reads the first 16 bytes of the string only. -/
@[simp] theorem Block.ofBytes_take (bs : List Byte) : Block.ofBytes (bs.take 16) = Block.ofBytes bs := by
  simp [Block.ofBytes, Column.ofBytes, List.getD_eq_getElem?_getD]

theorem blocksOf_succ_append (n : Nat) (b : Block) (rest : List Byte) :
    blocksOf (n + 1) (Block.toBytes b ++ rest) = b :: blocksOf n rest := by
  rw [blocksOf, Block.ofBytes_take, Block.ofBytes_toBytes_append,
    List.drop_left' (Block.length_toBytes b)]

theorem getElem_blocksOf (n : Nat) (bs : List Byte) (j : Nat) (h : j < (blocksOf n bs).length) :
    (blocksOf n bs)[j] = Block.ofBytes (bs.drop (16 * j)) := by
  induction n generalizing bs j with
  | zero => simp [blocksOf] at h
  | succ n ih =>
    cases j with
    | zero => exact Block.ofBytes_take bs
    | succ j =>
      simp only [blocksOf, List.getElem_cons_succ, ih, List.drop_drop]
      rw [Nat.mul_succ, Nat.add_comm]

/-- The bytes of the blocks of a string of whole blocks are the string. -/
theorem flatMap_toBytes_blocksOf (n : Nat) (bs : List Byte) (h : bs.length = 16 * n) :
    (blocksOf n bs).flatMap Block.toBytes = bs := by
  induction n generalizing bs with
  | zero => exact (List.length_eq_zero_iff.1 h).symm
  | succ n ih =>
    rw [blocksOf, List.flatMap_cons, ih _ (by rw [List.length_drop]; omega),
      Block.toBytes_ofBytes _ (by rw [List.length_take]; omega), List.take_append_drop]

/-! ## CBC (42_aes.md R113, R114) -/

/-- After its first block a chain goes on from that block. -/
theorem drop_cbcEncBlocks_cons (k prev m : Block) (rest : List Block) (j : Nat) :
    (cbcEncBlocks k prev (m :: rest)).drop (16 * (j + 1)) =
      (cbcEncBlocks k (aesEnc (Block.xor m prev) k) rest).drop (16 * j) := by
  rw [Nat.mul_succ, Nat.add_comm, ← List.drop_drop, cbcEncBlocks,
    List.drop_left' (Block.length_toBytes _)]

/-- Each ciphertext block encrypts its plaintext block XORed with the ciphertext block before it, the first with
the chaining value given. -/
theorem ofBytes_drop_cbcEncBlocks (k prev : Block) (ms : List Block) (j : Nat) (h : j < ms.length) :
    Block.ofBytes ((cbcEncBlocks k prev ms).drop (16 * j)) =
      aesEnc (Block.xor ms[j] (if j = 0 then prev
        else Block.ofBytes ((cbcEncBlocks k prev ms).drop (16 * (j - 1))))) k := by
  induction ms generalizing prev j with
  | nil => simp at h
  | cons m rest ih =>
    cases j with
    | zero => rfl
    | succ j =>
      rw [drop_cbcEncBlocks_cons, ih _ _ (Nat.lt_of_succ_lt_succ h), List.getElem_cons_succ,
        if_neg (Nat.succ_ne_zero j), Nat.add_sub_cancel]
      cases j with
      | zero => rfl
      | succ j => rw [if_neg (Nat.succ_ne_zero j), Nat.add_sub_cancel, drop_cbcEncBlocks_cons]

/-- Settles O40: the blocks of the padded plaintext, chained from the key. -/
theorem cbcChainsFromTheKey : Obligations.CbcChainsFromTheKey := by
  intro p k
  refine ⟨length_cbcEnc p k, fun j hj => ?_⟩
  have hblocks : j < (blocksOf ((pad p).length / 16) (pad p)).length := by
    rw [length_blocksOf, length_pad]
    omega
  rw [← getElem_blocksOf _ _ _ hblocks]
  exact ofBytes_drop_cbcEncBlocks k k _ j hblocks

/-- The decryption of a chain under the key and chaining value that made it. -/
theorem cbcDecBlocks_cbcEncBlocks (k prev : Block) (ms : List Block) :
    cbcDecBlocks k prev (blocksOf ms.length (cbcEncBlocks k prev ms)) = ms.flatMap Block.toBytes := by
  induction ms generalizing prev with
  | nil => rfl
  | cons m rest ih =>
    rw [List.length_cons, cbcEncBlocks, blocksOf_succ_append, cbcDecBlocks, ih, aesDecInvertsAesEnc,
      Block.xor_xor_cancel, List.flatMap_cons]

/-- Settles O42: the blocks decrypt to the padded plaintext's, and the padding is taken off. -/
theorem cbcDecInvertsCbcEnc : Obligations.CbcDecInvertsCbcEnc := by
  intro p k
  have hblocks : (blocksOf ((pad p).length / 16) (pad p)).length = (cbcEnc p k).length / 16 := by
    rw [length_blocksOf, length_pad, length_cbcEnc]
  have hlen : ¬ ((cbcEnc p k).length = 0 ∨ (cbcEnc p k).length % 16 ≠ 0) := by
    rw [length_cbcEnc]
    omega
  rw [cbcDec, if_neg hlen, ← hblocks, cbcEnc, cbcDecBlocks_cbcEncBlocks,
    flatMap_toBytes_blocksOf _ _ (by rw [length_pad]; omega), unpad_pad]

end Sys2Proof.Machine
end

section
/-!
The four commands of the AES engine, and what a run of them returns (42_aes.md section 3).
-/
namespace Sys2Proof.Machine

open Sys2Proof.Claims

/-! ## The four commands -/

/-- KLOAD of 16 bytes (42_aes.md R115). -/
theorem exec_kload {s : State} (h : s.ilen = 16) :
    exec .kload s = .next (finish (setKey (Block.ofBytes (input s)) true s)) := by
  rw [← inputSlice_zero_ilen, h]
  exact if_neg (not_not.2 h)

/-- KLOAD of any other length (42_aes.md R115). -/
theorem exec_kload_badLength {s : State} (h : s.ilen ≠ 16) :
    exec .kload s = .next (raise .invalidKey s) :=
  if_pos h

/-- KCLR (42_aes.md R116). -/
theorem exec_kclr (s : State) :
    exec .kclr s = .next (finish (setKey (Block.ofBytes (List.replicate 16 0x00#8)) false s)) := rfl

/-- AESENC with a key (42_aes.md R117). -/
theorem exec_aesenc {s : State} (hkey : s.kvalid = true) (h : s.ilen ≤ 256) :
    exec .aesenc s = .next (emitted (cbcEnc (input s) s.key) s) := by
  have hfits : (cbcEnc (input s) s.key).length ≤ 272 := by
    rw [length_cbcEnc, length_input]
    omega
  exact (if_neg (by simp [hkey])).trans (finishWith_eq_emitted s hfits)

/-- AESENC with no key (42_aes.md R117). -/
theorem exec_aesenc_noKey {s : State} (hkey : s.kvalid = false) :
    exec .aesenc s = .next (raise .invalidKey s) :=
  if_pos hkey

/-- AESDEC of a valid ciphertext ends in its plaintext as output (42_aes.md R118). -/
theorem aesdecWith_valid (c : Params) {s : State} {p : List Byte} (hkey : s.kvalid = true)
    (hdec : cbcDec (input s) s.key = some p) : aesdecWith c s = finishWith c p s := by
  rw [aesdecWith, if_neg (by simp [hkey]), hdec]

/-- AESDEC of an invalid ciphertext is DECRYPTION (42_aes.md R118). -/
theorem aesdecWith_invalid (c : Params) {s : State} (hkey : s.kvalid = true)
    (hdec : cbcDec (input s) s.key = none) : aesdecWith c s = fails .decryption s := by
  rw [aesdecWith, if_neg (by simp [hkey]), hdec]

/-- AESDEC of a valid ciphertext: the plaintext is no longer than the input, so it fits (42_aes.md R118). -/
theorem exec_aesdec {s : State} {p : List Byte} (hkey : s.kvalid = true) (h : s.ilen ≤ 256)
    (hdec : cbcDec (input s) s.key = some p) : exec .aesdec s = .next (emitted p s) := by
  have hshort : p.length ≤ s.ilen := by simpa using length_le_of_cbcDec _ _ _ hdec
  exact (aesdecWith_valid Config.params hkey hdec).trans
    (finishWith_eq_emitted s (le_obufCap (by omega)))

/-- AESDEC of an invalid ciphertext (42_aes.md R118). -/
theorem exec_aesdec_invalid {s : State} (hkey : s.kvalid = true)
    (hdec : cbcDec (input s) s.key = none) : exec .aesdec s = .next (raise .decryption s) :=
  aesdecWith_invalid Config.params hkey hdec

/-- AESDEC with no key (42_aes.md R118). -/
theorem exec_aesdec_noKey {s : State} (hkey : s.kvalid = false) :
    exec .aesdec s = .next (raise .invalidKey s) :=
  if_pos hkey

/-- A decryption takes 1 to 16 bytes of padding off (42_aes.md R112, R114). -/
theorem length_add_padding_of_cbcDec {c p : List Byte} {k : Block} (h : cbcDec c k = some p) :
    ∃ q, 1 ≤ q ∧ q ≤ 16 ∧ p.length + q = c.length := by
  unfold cbcDec at h
  split at h
  · cases h
  · obtain ⟨q, h1, h16, heq⟩ := (unpad_eq_some_iff _ _).1 h
    have hlen := congrArg List.length heq
    simp only [length_cbcDecBlocks, length_blocksOf, List.length_append, List.length_replicate] at hlen
    exact ⟨q, h1, h16, by omega⟩

/-- Settles O35: an update of the key writes KEY, KVALID and STATUS only. -/
theorem kloadAndKclrComplete : Obligations.KloadAndKclrComplete := by
  refine ⟨zeroRow_of_opcodeRow rfl, zeroRow_of_opcodeRow rfl, fun s => ⟨fun h => ?_, fun h => ?_, ?_⟩⟩
  · exact ⟨_, exec_kload h, ⟨rfl, rfl⟩, Block.toBytes_ofBytes _ (by rw [length_input, h]), rfl,
      ⟨rfl, fun _ => rfl⟩, ⟨rfl, fun _ => rfl⟩, rfl, ⟨rfl, rfl⟩, rfl, rfl⟩
  · exact ⟨_, exec_kload_badLength h, errorOnly_raise .invalidKey s⟩
  · exact ⟨_, exec_kclr s, ⟨rfl, rfl⟩, Block.toBytes_ofBytes _ List.length_replicate, rfl,
      ⟨rfl, fun _ => rfl⟩, ⟨rfl, fun _ => rfl⟩, rfl, ⟨rfl, rfl⟩, rfl, rfl⟩

/-- Settles O36, by whether a key is loaded. -/
theorem aesencCompletes : Obligations.AesencCompletes := by
  refine ⟨zeroRow_of_opcodeRow rfl, fun s => ⟨fun hkey h => ?_, fun hkey => ?_⟩⟩
  · have hlen : (cbcEnc (input s) s.key).length = 16 * (s.ilen / 16 + 1) := by
      rw [length_cbcEnc, length_input]
    exact ⟨_, exec_aesenc hkey h, okWithOutput_emitted _ s, hlen⟩
  · exact ⟨_, exec_aesenc_noKey hkey, errorOnly_raise .invalidKey s⟩

/-- Settles O37: a ciphertext of no whole blocks is one of the invalid ones. -/
theorem aesdecCompletes : Obligations.AesdecCompletes := by
  refine ⟨zeroRow_of_opcodeRow rfl, fun s => ⟨fun p hkey h hdec => ?_, fun hkey hlen => ?_,
    fun hkey hdec => ?_, fun hkey => ?_⟩⟩
  · obtain ⟨q, h1, h16, hq⟩ := length_add_padding_of_cbcDec hdec
    exact ⟨_, exec_aesdec hkey h hdec, okWithOutput_emitted p s, q, h1, h16, hq.trans (length_input s)⟩
  · have hdec : cbcDec (input s) s.key = none := if_pos (by simpa using hlen)
    exact ⟨_, exec_aesdec_invalid hkey hdec, errorOnly_raise .decryption s⟩
  · exact ⟨_, exec_aesdec_invalid hkey hdec, errorOnly_raise .decryption s⟩
  · exact ⟨_, exec_aesdec_noKey hkey, errorOnly_raise .invalidKey s⟩

/-! ## Runs of commands (42_aes.md R119) -/

/-- A run that begins with a LOAD that fits: it shows no STATUS of its own. -/
theorem run_load {bytes : List Byte} {rest : List HostAction} {s : State}
    (h : bytes.length ≤ 256) : run (.load bytes :: rest) s = run rest (taken bytes s) := by
  have hperform : perform (.load bytes) s = .next (taken bytes s) :=
    (hostLoad_eq_next Config.params bytes s _).2 ⟨h, rfl⟩
  simp only [run, hperform]
  cases run rest (taken bytes s) <;> rfl

/-- The state after LOAD and KLOAD of a key. -/
def keyed (keyBytes : List Byte) (s : State) : State :=
  finish (setKey (Block.ofBytes keyBytes) true (taken keyBytes s))

/-- The output of AESENC for a plaintext under a loaded key. -/
def ciphertext (keyBytes plain : List Byte) : List Byte := cbcEnc plain (Block.ofBytes keyBytes)

/-- The state after LOAD and KLOAD of a key, LOAD of a plaintext, and AESENC. -/
def encrypted (keyBytes plain : List Byte) (s : State) : State :=
  emitted (ciphertext keyBytes plain) (taken plain (keyed keyBytes s))

/-- The first four actions of the round trip, with the commands' two STATUS codes put before the rest's. -/
theorem run_keyed_aesenc {keyBytes plain : List Byte} {rest : List HostAction} {s u : State}
    {codes : List (BitVec 8)} (hk : keyBytes.length = 16) (hp : plain.length ≤ 256)
    (hrest : run rest (encrypted keyBytes plain s) = some (u, codes)) :
    run (.load keyBytes :: .issue (encode .kload) :: .load plain :: .issue (encode .aesenc) :: rest) s =
      some (u, 0x00#8 :: 0x00#8 :: codes) := by
  have hkload : exec .kload (taken keyBytes s) = .next (keyed keyBytes s) := by
    rw [exec_kload hk, (input_taken keyBytes s).1, keyed]
  have haesenc : exec .aesenc (taken plain (keyed keyBytes s)) = .next (encrypted keyBytes plain s) := by
    rw [exec_aesenc rfl hp, (input_taken plain _).1]
    rfl
  have hplain := (run_load hp).trans (run_issue_encode haesenc hrest)
  exact (run_load (by omega)).trans (run_issue_encode hkload hplain)

/-- MOVOI and AESDEC after AESENC return the plaintext, if the ciphertext fits the input. -/
theorem run_movoi_aesdec {keyBytes plain : List Byte} {s : State} (hp : plain.length ≤ 255) :
    ∃ t, run [.issue (encode .movoi), .issue (encode .aesdec)] (encrypted keyBytes plain s) =
      some (t, [0x00#8, 0x00#8]) ∧ output t = plain := by
  have hfits : (ciphertext keyBytes plain).length ≤ 256 := by
    rw [ciphertext, length_cbcEnc]
    omega
  have hmovoi := exec_movoi_emitted (taken plain (keyed keyBytes s)) hfits
  obtain ⟨hin, -⟩ := input_taken (ciphertext keyBytes plain) (encrypted keyBytes plain s)
  have hdec : cbcDec (input (finish (taken (ciphertext keyBytes plain) (encrypted keyBytes plain s))))
      (Block.ofBytes keyBytes) = some plain :=
    (congrArg (cbcDec · _) hin).trans (cbcDecInvertsCbcEnc plain _)
  have haesdec := run_issue_encode (rest := []) (exec_aesdec rfl hfits hdec) rfl
  exact ⟨_, run_issue_encode hmovoi haesdec, output_emitted plain _⟩

/-- The ciphertext of a full input is one block too long for MOVOI (44_control.md R142). -/
theorem run_movoi_full {keyBytes plain : List Byte} {s : State} (hp : plain.length = 256) :
    ∃ t, run [.issue (encode .movoi)] (encrypted keyBytes plain s) = some (t, [0x02#8]) := by
  have hlong : Config.ibufCap < (ciphertext keyBytes plain).length := by
    rw [ciphertext, length_cbcEnc, hp]
    decide
  exact ⟨_, run_issue_encode (i := .movoi) (rest := [])
    (movoiWith_overlong Config.params (encrypted keyBytes plain s) hlong) rfl⟩

/-- Settles O43: the key and the encryption, then the way back or its refusal. -/
theorem aesCommandsRoundTrip : Obligations.AesCommandsRoundTrip := by
  refine fun s keyBytes plain hk => ⟨fun hp => ?_, fun hp => ?_⟩
  · obtain ⟨t, hrun, hout⟩ := run_movoi_aesdec (keyBytes := keyBytes) (s := s) hp
    exact ⟨t, _, run_keyed_aesenc hk (by omega) hrun, rfl, hout⟩
  · obtain ⟨t, hrun⟩ := run_movoi_full (keyBytes := keyBytes) (s := s) hp
    exact ⟨t, run_keyed_aesenc hk hp.le hrun⟩

end Sys2Proof.Machine
end

section
/-!
The two dialects after FPARSE and FINIT, and FPARSE's errors (43_frame.md R123, R124, R126; 60_exceptions.md
R149). The lemmas are for all parameters.
-/
namespace Sys2Proof.Machine

open Sys2Proof.Claims

/-! ## What FPARSE can do -/

/-- Everything FPARSE can do: drop the frame with the parser's error, or write the frame registers. -/
theorem fparseWith_cases {c : Params} {s t : State} (h : fparseWith c s = .next t) :
    (∃ e, parseFrame (input s) = .error e ∧ t = raise e (dropFrame s)) ∨
      ∃ f, parseFrame (input s) = .ok f ∧ t = finish (setFrame (parsedRegs c (input s) f) s) := by
  unfold fparseWith at h
  split at h <;> cases h
  · exact .inl ⟨_, ‹_›, rfl⟩
  · exact .inr ⟨_, ‹_›, rfl⟩

theorem parseHeader_of_parseFrame {f : List Byte} {h : FrameHeader} (hf : parseFrame f = .ok h) :
    parseHeader f = .ok h := by
  cases hh : parseHeader f with
  | error e => simp [parseFrame, hh] at hf
  | ok g =>
    simp only [parseFrame, hh] at hf
    split_ifs at hf
    exact hf

/-- A header is of 7 bytes or more with the CRC, and its protocolType is byte 2 in either dialect. -/
theorem parseHeader_pt {f : List Byte} {h : FrameHeader} (hh : parseHeader f = .ok h) :
    7 ≤ f.length ∧ h.pt = byteAt f 2 := by
  unfold parseHeader at hh
  split_ifs at hh <;> cases hh <;> exact ⟨by omega, rfl⟩

/-- FPARSE that ends OK writes FLEG by frame byte 2 (43_frame.md R123). -/
theorem fparseWith_fleg {c : Params} {s t : State} (h : fparseWith c s = .next t)
    (hok : t.status = statusOk) : t.frame.fleg = isLegacy (inByte s 2) := by
  obtain ⟨e, -, rfl⟩ | ⟨f, hf, rfl⟩ := fparseWith_cases h
  · exact absurd hok e.status_ne_ok
  · obtain ⟨hlen, hpt⟩ := parseHeader_pt (parseHeader_of_parseFrame hf)
    rw [length_input] at hlen
    exact congrArg isLegacy (hpt.trans (byteAt_input_eq_inByte (by omega)))

/-- FINIT that ends OK writes FLEG by descriptor byte 0 (43_frame.md R123). -/
theorem finitWith_fleg {c : Params} {draw : Fin 127} {s t : State} (h : finitWith c draw s = .next t)
    (hok : t.status = statusOk) : t.frame.fleg = isLegacy (inByte s 0) := by
  by_cases h7 : s.ilen = 7
  · obtain ⟨ef, n, hexec, -⟩ := finitWith_descriptor c draw h7
    cases hexec.symm.trans h
    exact congrArg isLegacy (byteAt_input_eq_inByte (by omega))
  · have herror : finitWith c draw s = fails .invalidLength s := if_pos h7
    cases herror.symm.trans h
    exact absurd hok (ErrorCode.status_ne_ok _)

/-- Settles O44: the two predicates are complementary, and both commands write FLEG by the second. -/
theorem everyProtocolTypeHasOneDialect : Obligations.EveryProtocolTypeHasOneDialect := by
  refine ⟨fun pt => ⟨by rw [isLegacy_eq_not_isModern, Bool.not_not], isLegacy_iff pt⟩, ?_⟩
  exact fun s t hok => ⟨fun h => fparseWith_fleg h hok, fun h => finitWith_fleg h hok⟩

/-! ## FPARSE's errors -/

theorem parseHeader_tooShort {f : List Byte} (h : f.length ≤ 6) :
    parseHeader f = .error .frameTooShort :=
  if_pos (by omega)

theorem parseHeader_modern_tooShort {f : List Byte} (hpt : isModern (byteAt f 2) = true)
    (h : f.length ≤ 12) : parseHeader f = .error .frameTooShort := by
  by_cases h7 : f.length < 7
  · exact if_pos h7
  · rw [parseHeader, if_neg h7, if_pos hpt, if_pos (by omega)]

theorem parseFrame_of_parseHeader_error {f : List Byte} {e : ErrorCode}
    (h : parseHeader f = .error e) : parseFrame f = .error e := by
  rw [parseFrame, h]

/-- A payloadLength that is negative as a signed byte, or that the frame is too short for, is INVALID_LENGTH
(30_encoding.md R71). -/
theorem parseFrame_invalidLength {f : List Byte} {h : FrameHeader} (hh : parseHeader f = .ok h)
    (hbad : 128 ≤ h.len.toNat ∨ f.length < h.hl + h.len.toNat + 1) :
    parseFrame f = .error .invalidLength := by
  simp only [parseFrame, hh, sext8_neg_iff]
  by_cases hsign : 128 ≤ h.len.toNat
  · rw [if_pos hsign]
  · rw [if_neg hsign, if_pos (hbad.resolve_left hsign)]

/-- FPARSE of an input that does not parse ends in the parser's error and drops the frame (43_frame.md R126). -/
theorem fparse_error {s : State} {e : ErrorCode} (h : parseFrame (input s) = .error e) :
    ∃ t, exec .fparse s = .next t ∧ ErrorDroppingFrame e.number s t := by
  have hexec : fparseWith Config.params s = .next (raise e (dropFrame s)) := by
    rw [fparseWith, h]
    rfl
  exact ⟨_, hexec, ⟨rfl, rfl⟩,
    ⟨⟨rfl, fun _ => rfl⟩, ⟨rfl, fun _ => rfl⟩, ⟨rfl, rfl⟩, rfl, rfl, rfl⟩, rfl, rfl⟩

theorem isModern_input {s : State} (hpt : inByte s 2 = 0x00#8 ∨ 5 ≤ (inByte s 2).toNat)
    (hl : 7 ≤ s.ilen) : isModern (byteAt (input s) 2) = true := by
  rw [byteAt_input_eq_inByte (by omega), isModern_iff]
  exact hpt

theorem isLegacy_input {s : State} (hpt1 : 1 ≤ (inByte s 2).toNat) (hpt4 : (inByte s 2).toNat ≤ 4)
    (hl : 7 ≤ s.ilen) : isLegacy (byteAt (input s) 2) = true := by
  rw [byteAt_input_eq_inByte (by omega), isLegacy_iff]
  exact ⟨hpt1, hpt4⟩

/-- Settles O47: the header is missing, or its payloadLength fails one of the two checks. -/
theorem fparseErrorsDropTheFrame : Obligations.FparseErrorsDropTheFrame := by
  refine ⟨zeroRow_of_opcodeRow rfl, fun s => ⟨fun hl => ?_, fun hpt => ⟨fun hl hl' => ?_,
    fun hl hbad => ?_⟩, fun hpt1 hpt4 hl hbad => ?_⟩⟩
  · exact fparse_error (parseFrame_of_parseHeader_error (parseHeader_tooShort (by simpa using hl)))
  · exact fparse_error (parseFrame_of_parseHeader_error
      (parseHeader_modern_tooShort (isModern_input hpt hl) (by simpa using hl')))
  · have hheader := parseHeader_modern (isModern_input hpt (by omega)) (by simpa using hl)
    rw [modernHeader_input hl] at hheader
    exact fparse_error (parseFrame_invalidLength hheader (by simp only [length_input]; omega))
  · have hheader := parseHeader_legacy (isLegacy_input hpt1 hpt4 hl) (by simpa using hl)
    rw [legacyHeader_input hl] at hheader
    exact fparse_error (parseFrame_invalidLength hheader (by simp only [length_input]; omega))

end Sys2Proof.Machine
end

section
/-!
FDATA: its successes and its errors in the order of the checks, and the cache that every host action but FPARSE,
FINIT and RESET keeps (43_frame.md R127 to R129; 60_exceptions.md R157; 70_reset_and_hazards.md R172).
-/
namespace Sys2Proof.Machine

open Sys2Proof.Claims

/-! ## FDATA's checks in order (60_exceptions.md R157) -/

/-- FDATA without a parsed frame. -/
theorem exec_fdata_notParsed {s : State} (hp : s.frame.fstate ≠ .parsed) :
    exec .fdata s = .next (raise .commandNotReady s) :=
  if_pos hp

/-- FDATA from the cache: the payload is output, whatever KEY, KVALID and CFG are (43_frame.md R129). -/
theorem exec_fdata_cached {s : State} (hp : s.frame.fstate = .parsed) (hd : s.frame.fdone = true)
    (hl : s.frame.fplain.length ≤ 127) : exec .fdata s = .next (emitted s.frame.fplain s) := by
  have hcached : exec .fdata s = finishWith Config.params s.frame.fplain s :=
    (if_neg (not_not.2 hp)).trans (if_pos hd)
  exact hcached.trans (finishWith_eq_emitted s (le_obufCap (by omega)))

/-- The CRC is accepted when CFG ignores it or it is right (43_frame.md R127). -/
theorem crcOk_iff (s : State) : crcOk s = true ↔ s.cfg.getLsbD 0 = true ∨ s.frame.fcrcok = true := by
  simp [crcOk, crcIgnore]

/-- FDATA with the CRC refused, before any decryption. -/
theorem exec_fdata_badCrc {s : State} (hp : s.frame.fstate = .parsed) (hd : s.frame.fdone = false)
    (hcrc : crcOk s = false) : exec .fdata s = .next (raise .crcMismatch s) :=
  (if_neg (not_not.2 hp)).trans ((if_neg (by simp [hd])).trans (if_pos hcrc))

/-- FDATA of a payload that does not decode. -/
theorem exec_fdata_undecoded {s : State} {e : ErrorCode} (hp : s.frame.fstate = .parsed)
    (hd : s.frame.fdone = false) (hcrc : crcOk s = true) (hdec : decodePayload s = .error e) :
    exec .fdata s = .next (raise e s) := by
  change fdataWith Config.params s = _
  rw [fdataWith, if_neg (not_not.2 hp), if_neg (by simp [hd]), if_neg (by simp [hcrc]), hdec]
  rfl

/-- FDATA of a payload that decodes: the plaintext, no longer than the payload, is output and cached. -/
theorem exec_fdata_decoded {s : State} {p : List Byte} (hp : s.frame.fstate = .parsed)
    (hd : s.frame.fdone = false) (hcrc : crcOk s = true) (hl : s.frame.fpay.length ≤ 127)
    (hdec : decodePayload s = .ok p) : exec .fdata s = .next (emitted p (cachePlain p s)) := by
  have hshort := length_le_of_decodePayload s p hdec
  change fdataWith Config.params s = _
  rw [fdataWith, if_neg (not_not.2 hp), if_neg (by simp [hd]), if_neg (by simp [hcrc]), hdec]
  exact finishWith_eq_emitted (cachePlain p s) (le_obufCap (by omega))

/-! ## The payload (43_frame.md R128) -/

theorem decodePayload_legacy {s : State} (hleg : s.frame.fleg = true) :
    decodePayload s = .ok (legacyXor s.frame.fpay s.frame.fef) :=
  if_pos hleg

theorem decodePayload_empty {s : State} (hleg : s.frame.fleg = false) (h0 : s.frame.fplen = 0x00#8) :
    decodePayload s = .ok [] :=
  (if_neg (by simp [hleg])).trans (if_pos h0)

theorem decodePayload_noKey {s : State} (hleg : s.frame.fleg = false) (h0 : s.frame.fplen ≠ 0x00#8)
    (hkey : s.kvalid = false) : decodePayload s = .error .commandNotReady :=
  (if_neg (by simp [hleg])).trans ((if_neg h0).trans (if_pos hkey))

theorem decodePayload_encrypted {s : State} {p : List Byte} (hleg : s.frame.fleg = false)
    (h0 : s.frame.fplen ≠ 0x00#8) (hkey : s.kvalid = true) (hdec : cbcDec s.frame.fpay s.key = some p) :
    decodePayload s = .ok p := by
  rw [decodePayload, if_neg (by simp [hleg]), if_neg h0, if_neg (by simp [hkey]), hdec]

theorem decodePayload_undecryptable {s : State} (hleg : s.frame.fleg = false)
    (h0 : s.frame.fplen ≠ 0x00#8) (hkey : s.kvalid = true) (hdec : cbcDec s.frame.fpay s.key = none) :
    decodePayload s = .error .decryption := by
  rw [decodePayload, if_neg (by simp [hleg]), if_neg h0, if_neg (by simp [hkey]), hdec]

/-- The output and the cache get the plaintext, and nothing else is written but STATUS. -/
theorem decodesTo_emitted (p : List Byte) (s : State) :
    DecodesTo p s (emitted p (cachePlain p s)) := by
  obtain ⟨hends, houtputs, hkeeps, -, hdraws⟩ := okWithOutput_emitted p (cachePlain p s)
  exact ⟨hends, houtputs, hkeeps, rfl, hdraws⟩

/-- Settles O48: the cache, or one of the three ways to decode. -/
theorem fdataCompletes : Obligations.FdataCompletes := by
  intro s hs hp
  obtain ⟨hpay, hplain⟩ := FrameOk.length_le s.frame hs
  refine ⟨fun hd => ⟨_, exec_fdata_cached hp hd hplain, okWithOutput_emitted _ s⟩, fun hd hcrc => ?_⟩
  have hdecodes : ∀ p, decodePayload s = .ok p → ∃ t, exec .fdata s = .next t ∧ DecodesTo p s t :=
    fun p hdec => ⟨_, exec_fdata_decoded hp hd ((crcOk_iff s).2 hcrc) hpay hdec, decodesTo_emitted p s⟩
  refine ⟨fun hleg => ?_, fun hleg h0 => hdecodes [] (decodePayload_empty hleg h0),
    fun p hleg h0 hkey hdec => ?_⟩
  · rw [xorWith_eq_legacyXor]
    exact hdecodes _ (decodePayload_legacy hleg)
  · exact hdecodes p (decodePayload_encrypted hleg h0 hkey hdec)

/-- Settles O49, check by check. -/
theorem fdataErrors : Obligations.FdataErrors := by
  refine ⟨zeroRow_of_opcodeRow rfl, fun s => ⟨fun hp => ?_, fun hp hd => ⟨fun hcfg hok => ?_,
    fun hcrc hleg h0 => ?_⟩⟩⟩
  · exact ⟨_, exec_fdata_notParsed hp, errorOnly_raise .commandNotReady s⟩
  · have hcrc : crcOk s = false := by rw [crcOk, crcIgnore, hcfg, hok, Bool.or_false]
    exact ⟨_, exec_fdata_badCrc hp hd hcrc, errorOnly_raise .crcMismatch s⟩
  · have hfails : ∀ e, decodePayload s = .error e → exec .fdata s = .next (raise e s) :=
      fun e => exec_fdata_undecoded hp hd ((crcOk_iff s).2 hcrc)
    refine ⟨fun hkey => ?_, fun hkey hdec => ?_⟩
    · exact ⟨_, hfails _ (decodePayload_noKey hleg h0 hkey), errorOnly_raise .commandNotReady s⟩
    · exact ⟨_, hfails _ (decodePayload_undecryptable hleg h0 hkey hdec),
        errorOnly_raise .decryption s⟩

/-! ## The cache (43_frame.md R129; 70_reset_and_hazards.md R172) -/

/-- FDATA has cached `p` for the held frame. -/
def CacheHolds (p : List Byte) (s : State) : Prop :=
  s.frame.fstate = .parsed ∧ s.frame.fdone = true ∧ s.frame.fplain = p

/-- Every command but FPARSE and FINIT keeps the cache: FDATA writes it only where there is none. -/
theorem After.cacheHolds {c : Params} {i : Instr} {s t : State} {p : List Byte} (h : After c i s t)
    (hparse : i ≠ .fparse) (hinit : i ≠ .finit) (hs : CacheHolds p s) : CacheHolds p t := by
  cases h with
  | dropped _ h => exact absurd h hparse
  | parsed _ h => exact absurd h hparse
  | drawnShell _ h => exact absurd h hinit
  | shell h => exact absurd h hinit
  | decoded _ _ _ _ hd =>
    obtain ⟨-, hdone, -⟩ := hs
    simp [hd] at hdone
  | _ => exact hs

/-- Every host action but RESET and the words of FPARSE and FINIT keeps the cache. -/
theorem perform_cacheHolds {a : HostAction} {s t : State} {p : List Byte}
    (h : perform a s = .next t) (hreset : a ≠ .reset) (hparse : a ≠ .issue (encode .fparse))
    (hinit : a ≠ .issue (encode .finit)) (hs : CacheHolds p s) : CacheHolds p t := by
  cases a with
  | load bytes =>
    obtain ⟨-, rfl⟩ := (hostLoad_eq_next _ _ _ _).1 h
    exact hs
  | issue cw =>
    have hword : commandWord Config.params (nextDraw s) cw s = .next t :=
      (issueWord_eq_commandWord cw s).symm.trans h
    obtain ⟨i, hdecode, hi⟩ | ⟨-, rfl⟩ := commandWord_cases hword
    · obtain rfl := decodedWordIsTheCommandsWord cw i hdecode
      exact hi.cacheHolds (fun he => hparse (he ▸ rfl)) (fun he => hinit (he ▸ rfl)) hs
    · exact hs
  | read r =>
    cases h
    exact hs
  | reset => exact absurd rfl hreset

/-- A run of such actions keeps the cache, by induction on the actions. -/
theorem run_cacheHolds {actions : List HostAction} {s t : State} {codes : List (BitVec 8)}
    {p : List Byte} (hrun : run actions s = some (t, codes))
    (hkeep : ∀ a ∈ actions, a ≠ .reset ∧ a ≠ .issue (encode .fparse) ∧ a ≠ .issue (encode .finit))
    (hs : CacheHolds p s) : CacheHolds p t := by
  induction actions generalizing s codes with
  | nil =>
    cases hrun
    exact hs
  | cons a actions ih =>
    obtain ⟨u, codes', hperform, hrest⟩ := run_cons_eq_some hrun
    obtain ⟨hreset, hparse, hinit⟩ := hkeep a List.mem_cons_self
    exact ih hrest (fun b hb => hkeep b (List.mem_cons_of_mem a hb))
      (perform_cacheHolds hperform hreset hparse hinit hs)

/-- Settles O50: the run keeps the cache, and FDATA then returns it. -/
theorem cachedPayloadSurvives : Obligations.CachedPayloadSurvives := by
  intro actions s t codes hs hp hd hkeep hrun
  obtain ⟨-, hplain⟩ := FrameOk.length_le s.frame hs
  obtain ⟨hp', hd', hcache⟩ := run_cacheHolds hrun hkeep ⟨hp, hd, rfl⟩
  refine ⟨_, exec_fdata_cached hp' hd' (hcache ▸ hplain), rfl, ?_⟩
  rw [output_emitted, hcache]

end Sys2Proof.Machine
end

section
/-!
FSETCMD, FSETEF and FBUILD: the frame registers they write, the frame that is built in each dialect, and their
errors in the order of the checks (43_frame.md R132 to R136; 60_exceptions.md R157).
-/
namespace Sys2Proof.Machine

open Sys2Proof.Claims

/-! ## FSETCMD and FSETEF (43_frame.md R132, R133) -/

theorem exec_fsetcmd (cmd : Byte) {s : State} (h : s.frame.fstate ≠ .empty) :
    exec (.fsetcmd cmd) s = .next (finish (setCommandType cmd s)) :=
  if_neg h

theorem exec_fsetcmd_noFrame (cmd : Byte) {s : State} (h : s.frame.fstate = .empty) :
    exec (.fsetcmd cmd) s = .next (raise .commandNotReady s) :=
  if_pos h

theorem exec_fsetef (ef : Byte) {s : State} (h : s.frame.fstate ≠ .empty) :
    exec (.fsetef ef) s = .next (finish (setEncryptFlag ef s)) :=
  if_neg h

theorem exec_fsetef_noFrame (ef : Byte) {s : State} (h : s.frame.fstate = .empty) :
    exec (.fsetef ef) s = .next (raise .commandNotReady s) :=
  if_pos h

/-- Settles O52: each command by whether a frame is held. -/
theorem fsetcmdAndFsetefComplete : Obligations.FsetcmdAndFsetefComplete := by
  refine ⟨immRow_of_opcodeRow rfl, immRow_of_opcodeRow rfl, fun imm s => ⟨fun h => ⟨?_, ?_⟩,
    fun h => ⟨?_, ?_⟩⟩⟩
  · exact ⟨_, exec_fsetcmd imm h, ⟨rfl, rfl⟩, keepsAllButFrame_setFrame _ s.draws s, rfl, rfl⟩
  · exact ⟨_, exec_fsetef imm h, ⟨rfl, rfl⟩, keepsAllButFrame_setFrame _ s.draws s, rfl, rfl⟩
  · exact ⟨_, exec_fsetcmd_noFrame imm h, errorOnly_raise .commandNotReady s⟩
  · exact ⟨_, exec_fsetef_noFrame imm h, errorOnly_raise .commandNotReady s⟩

/-! ## The frame without its CRC byte (43_frame.md R134 to R136) -/

/-- The input, as a plaintext, fits the held frame's dialect, and the key it needs is loaded. -/
def PlaintextFits (s : State) : Prop :=
  if s.frame.fleg then s.ilen ≤ 127 else (s.ilen = 0 ∨ s.kvalid = true) ∧ s.ilen ≤ 111

/-- The payload that FBUILD puts in a frame (43_frame.md R135, R136). -/
def builtPayload (s : State) : List Byte :=
  if s.frame.fleg then legacyXor (input s) s.frame.fef else modernPayload s

/-- The header that FBUILD puts before a payload of `n` bytes (30_encoding.md R69, R70). -/
def builtPrefix (r : FrameRegs) (n : Nat) : List Byte :=
  if r.fleg then legacyPrefix r n else modernPrefix r n

/-- The frame that FBUILD builds, without its CRC byte. -/
def builtBody (s : State) : List Byte :=
  builtPrefix s.frame (builtPayload s).length ++ builtPayload s

/-- A string with its CRC8 appended (40_crc8.md R90). -/
def withCrc (body : List Byte) : List Byte := body ++ [crc8 body]

theorem builtPayload_modern {s : State} (hleg : s.frame.fleg = false) :
    builtPayload s = modernPayload s := by
  simp [builtPayload, hleg]

theorem builtPayload_legacy {s : State} (hleg : s.frame.fleg = true) :
    builtPayload s = legacyXor (input s) s.frame.fef :=
  if_pos hleg

theorem builtBody_modern {s : State} (hleg : s.frame.fleg = false) : builtBody s = modernBody s := by
  simp only [builtBody, builtPayload_modern hleg, builtPrefix, hleg]
  rfl

theorem builtBody_legacy {s : State} (hleg : s.frame.fleg = true) : builtBody s = legacyBody s := by
  simp only [builtBody, builtPayload_legacy hleg, builtPrefix, hleg, if_true, length_legacyXor,
    length_input, legacyBody, xorWith_eq_legacyXor]
  rfl

theorem plaintextFits_modern {s : State} (hleg : s.frame.fleg = false) :
    PlaintextFits s ↔ (s.ilen = 0 ∨ s.kvalid = true) ∧ s.ilen ≤ 111 := by
  simp [PlaintextFits, hleg]

theorem plaintextFits_legacy {s : State} (hleg : s.frame.fleg = true) :
    PlaintextFits s ↔ s.ilen ≤ 127 := by
  simp [PlaintextFits, hleg]

/-- The payload of a plaintext that fits has a length byte below 0x80 (30_encoding.md R71). -/
theorem length_builtPayload_le {s : State} (h : PlaintextFits s) : (builtPayload s).length ≤ 127 := by
  cases hleg : s.frame.fleg with
  | true =>
    rw [builtPayload_legacy hleg, length_legacyXor, length_input]
    exact (plaintextFits_legacy hleg).1 h
  | false =>
    obtain ⟨-, hl⟩ := (plaintextFits_modern hleg).1 h
    rw [builtPayload_modern hleg, modernPayload]
    split
    · simp
    · rw [length_cbcEnc, length_input]
      omega

theorem length_builtPrefix_le (r : FrameRegs) (n : Nat) : (builtPrefix r n).length ≤ 12 := by
  unfold builtPrefix
  split <;> simp [legacyPrefix, modernPrefix]

/-- A built frame fits both buffers. -/
theorem length_builtFrame_le {s : State} (h : PlaintextFits s) :
    (withCrc (builtBody s)).length ≤ 140 := by
  have hpre := length_builtPrefix_le s.frame (builtPayload s).length
  have hpay := length_builtPayload_le h
  simp only [withCrc, builtBody, List.length_append, List.length_singleton]
  omega

/-- The payload of a modern frame, as FBUILD computes it from the length of the plaintext. -/
theorem modernPayload_eq (s : State) :
    modernPayload s = if (input s).length > 0 then cbcEnc (input s) s.key else [] := by
  by_cases h0 : s.ilen = 0
  · simp [modernPayload, h0]
  · rw [modernPayload, if_neg h0, if_pos (by rw [length_input]; omega)]

/-- With the key that a plaintext needs, the modern body is `modernBody`, if its payload fits the length byte
(43_frame.md R134, R135). -/
theorem frameBody_modern_keyed {s : State} (hleg : s.frame.fleg = false)
    (hkey : s.ilen = 0 ∨ s.kvalid = true) :
    frameBody s =
      if (modernPayload s).length > 127 then .error .invalidLength else .ok (modernBody s) := by
  have hkey' : ¬ ((input s).length > 0 ∧ s.kvalid = false) := by
    rw [length_input]
    obtain h0 | hk := hkey
    · omega
    · simp [hk]
  simp only [frameBody, hleg, Bool.false_eq_true, if_false, if_neg hkey', ← modernPayload_eq]
  rfl

theorem frameBody_noKey {s : State} (hleg : s.frame.fleg = false) (hl : 1 ≤ s.ilen)
    (hkey : s.kvalid = false) : frameBody s = .error .missingAesKey := by
  have hkey' : (input s).length > 0 ∧ s.kvalid = false := ⟨by rw [length_input]; omega, hkey⟩
  simp only [frameBody, hleg, Bool.false_eq_true, if_false, if_pos hkey']

theorem frameBody_modern_tooLong {s : State} (hleg : s.frame.fleg = false) (hl : 112 ≤ s.ilen)
    (hkey : s.kvalid = true) : frameBody s = .error .invalidLength := by
  rw [frameBody_modern_keyed hleg (.inr hkey), if_pos]
  rw [modernPayload, if_neg (by omega), length_cbcEnc, length_input]
  omega

theorem frameBody_legacy_tooLong {s : State} (hleg : s.frame.fleg = true) (hl : 128 ≤ s.ilen) :
    frameBody s = .error .invalidLength := by
  simp only [frameBody, hleg, if_true, length_input, if_pos (show s.ilen > 127 by omega)]

/-- FBUILD's body for a plaintext that fits, in either dialect. -/
theorem frameBody_of_fits {s : State} (h : PlaintextFits s) : frameBody s = .ok (builtBody s) := by
  have hlen := length_builtPayload_le h
  cases hleg : s.frame.fleg with
  | true =>
    have hl : ¬ s.ilen > 127 := Nat.not_lt.2 ((plaintextFits_legacy hleg).1 h)
    simp [frameBody, builtBody, builtPrefix, builtPayload_legacy hleg, hleg, hl]
  | false =>
    obtain ⟨hkey, -⟩ := (plaintextFits_modern hleg).1 h
    rw [builtPayload_modern hleg] at hlen
    rw [frameBody_modern_keyed hleg hkey, if_neg (by omega), builtBody_modern hleg]

/-! ## FBUILD -/

/-- FBUILD without a frame, or without a commandType. -/
theorem exec_fbuild_notReady {s : State} (h : s.frame.fstate = .empty ∨ s.frame.fcmdv = false) :
    exec .fbuild s = .next (raise .commandNotReady s) :=
  if_pos h

/-- FBUILD of a plaintext that does not fit, or without the key it needs. -/
theorem exec_fbuild_error {s : State} {e : ErrorCode} (hheld : s.frame.fstate ≠ .empty)
    (hcmd : s.frame.fcmdv = true) (hbody : frameBody s = .error e) :
    exec .fbuild s = .next (raise e s) := by
  change fbuildWith Config.params s = _
  rw [fbuildWith, if_neg (by simp [hheld, hcmd]), hbody]
  rfl

/-- FBUILD of a plaintext that fits outputs the frame with its CRC. -/
theorem exec_fbuild {s : State} (hheld : s.frame.fstate ≠ .empty) (hcmd : s.frame.fcmdv = true)
    (h : PlaintextFits s) : exec .fbuild s = .next (emitted (withCrc (builtBody s)) s) := by
  change fbuildWith Config.params s = _
  rw [fbuildWith, if_neg (by simp [hheld, hcmd]), frameBody_of_fits h]
  exact finishWith_eq_emitted s (le_obufCap ((length_builtFrame_le h).trans (by decide)))

/-- Settles O53: the built frame is the one its dialect writes out. -/
theorem fbuildCompletes : Obligations.FbuildCompletes := by
  refine fun s hheld hcmd => ⟨fun hleg hkey hl => ?_, fun hleg hl => ?_⟩
  · rw [← builtBody_modern hleg]
    exact ⟨_, exec_fbuild hheld hcmd ((plaintextFits_modern hleg).2 ⟨hkey, hl⟩),
      okWithOutput_emitted _ s⟩
  · rw [← builtBody_legacy hleg]
    exact ⟨_, exec_fbuild hheld hcmd ((plaintextFits_legacy hleg).2 hl), okWithOutput_emitted _ s⟩

/-- Settles O54, check by check. -/
theorem fbuildErrors : Obligations.FbuildErrors := by
  refine ⟨zeroRow_of_opcodeRow rfl, fun s => ⟨fun h => ?_, fun hheld hcmd =>
    ⟨fun hleg hl hkey => ?_, fun hleg hl hkey => ?_, fun hleg hl => ?_⟩⟩⟩
  · exact ⟨_, exec_fbuild_notReady h, errorOnly_raise .commandNotReady s⟩
  · exact ⟨_, exec_fbuild_error hheld hcmd (frameBody_noKey hleg hl hkey),
      errorOnly_raise .missingAesKey s⟩
  · exact ⟨_, exec_fbuild_error hheld hcmd (frameBody_modern_tooLong hleg hl hkey),
      errorOnly_raise .invalidLength s⟩
  · exact ⟨_, exec_fbuild_error hheld hcmd (frameBody_legacy_tooLong hleg hl),
      errorOnly_raise .invalidLength s⟩

end Sys2Proof.Machine
end

section
/-!
The envelope round trip (43_frame.md R137): what FPARSE reads from a frame that FBUILD built, that FDATA then
returns the plaintext, and the run of all ten actions.
-/
namespace Sys2Proof.Machine

open Sys2Proof.Claims

/-! ## FPARSE of a built frame -/

/-- The header that the parser reads from a built frame has the fields FBUILD wrote, and ends where the payload
begins. -/
theorem parseHeader_builtPrefix {r : FrameRegs} (hleg : r.fleg = isLegacy r.fpt) (n : Nat)
    (rest : List Byte) (hrest : 1 ≤ rest.length) :
    ∃ h, parseHeader (builtPrefix r n ++ rest) = .ok h ∧ h.hl = (builtPrefix r n).length ∧
      h.pt = r.fpt ∧ h.cmd = r.fcmd ∧ h.ef = r.fef ∧ h.len = BitVec.ofNat 8 n := by
  cases hl : r.fleg with
  | true =>
    have hpre : builtPrefix r n = legacyPrefix r n := if_pos hl
    have hpt : isLegacy (byteAt (legacyPrefix r n ++ rest) 2) = true := hleg.symm.trans hl
    rw [hpre]
    exact ⟨_, parseHeader_legacy hpt (by simp [legacyPrefix]; omega), rfl, rfl, rfl, rfl, rfl⟩
  | false =>
    have hpre : builtPrefix r n = modernPrefix r n := if_neg (by simp [hl])
    have hpt : isModern (byteAt (modernPrefix r n ++ rest) 2) = true := by
      have hnot : isLegacy r.fpt = false := hleg.symm.trans hl
      rwa [isLegacy_eq_not_isModern, Bool.not_eq_false'] at hnot
    rw [hpre]
    exact ⟨_, parseHeader_modern hpt (by simp [modernPrefix]; omega), rfl, rfl, rfl, rfl, rfl⟩

/-- The range between two parts of a string is what stands between them. -/
theorem byteRange_append (pre mid post : List Byte) :
    byteRange (pre ++ mid ++ post) pre.length (pre.length + mid.length) = mid := by
  simp [byteRange]

/-- The frame registers `g` hold the parse of a frame that was built from `r` with the payload `pay`: its fields,
the payload, and a right CRC (43_frame.md R124, R125). -/
structure HoldsBuilt (r : FrameRegs) (pay : List Byte) (g : FrameRegs) : Prop where
  parsed : g.fstate = .parsed
  dialect : g.fleg = r.fleg
  command : g.fcmd = r.fcmd
  flag : g.fef = r.fef
  length : g.fplen = BitVec.ofNat 8 pay.length
  payload : g.fpay = pay
  crc : g.fcrcok = true
  uncached : g.fdone = false

/-- A built frame's last byte is the CRC of the bytes before it. -/
theorem crc_withCrc (body : List Byte) :
    crc8 (byteRange (withCrc body) 0 ((withCrc body).length - 1)) =
      byteAt (withCrc body) ((withCrc body).length - 1) := by
  simp [withCrc, byteRange, byteAt]

/-- FPARSE of a built frame holds what the frame was built from. -/
theorem exec_fparse_built {r : FrameRegs} {pay : List Byte} {s : State}
    (hleg : r.fleg = isLegacy r.fpt) (hlen : pay.length ≤ 127)
    (hin : input s = withCrc (builtPrefix r pay.length ++ pay)) :
    ∃ g, exec .fparse s = .next (finish (setFrame g s)) ∧ HoldsBuilt r pay g := by
  obtain ⟨h, hheader, hhl, hpt, hcmd, hef, hbyte⟩ :=
    parseHeader_builtPrefix hleg pay.length (pay ++ [crc8 (builtPrefix r pay.length ++ pay)]) (by simp)
  rw [← List.append_assoc] at hheader
  have hL : h.len.toNat = pay.length := by rw [hbyte, toNat_lengthByte (by omega)]
  have hilen : s.ilen = h.hl + h.len.toNat + 1 := by
    rw [← length_input, hin, hhl, hL]
    simp [withCrc, Nat.add_assoc]
  have hexec := fparseWith_of_parseHeader Config.params (s := s) (by rw [hin]; exact hheader)
    (by omega) hilen.ge
  refine ⟨_, hexec, rfl, ?_, hcmd, hef, hbyte, ?_, ?_, rfl⟩
  · exact (congrArg isLegacy hpt).trans hleg.symm
  · change byteRange (input s) h.hl (h.hl + h.len.toNat) = pay
    rw [hin, hhl, hL, withCrc, byteRange_append]
  · change (crc8 (byteRange (input s) 0 ((input s).length - 1)) ==
      byteAt (input s) ((input s).length - 1)) = true
    rw [hin, crc_withCrc]
    exact beq_self_eq_true _

/-! ## FDATA of a built frame -/

/-- The payload built from a plaintext decodes to it, under the same key (43_frame.md R128). -/
theorem decodePayload_built {w u : State} (hu : HoldsBuilt w.frame (builtPayload w) u.frame)
    (hfits : PlaintextFits w) (hkey : u.kvalid = true) (hsame : u.key = w.key) :
    decodePayload u = .ok (input w) := by
  cases hleg : w.frame.fleg with
  | true =>
    rw [decodePayload_legacy (hu.dialect.trans hleg), hu.payload, hu.flag, builtPayload_legacy hleg,
      legacyXor_legacyXor]
  | false =>
    have huleg : u.frame.fleg = false := hu.dialect.trans hleg
    have hpay : u.frame.fpay = modernPayload w := hu.payload.trans (builtPayload_modern hleg)
    have hlength : u.frame.fplen.toNat = (modernPayload w).length := by
      rw [hu.length, toNat_lengthByte ((length_builtPayload_le hfits).trans_lt (by decide)),
        builtPayload_modern hleg]
    by_cases h0 : w.ilen = 0
    · have hplain : input w = [] := List.length_eq_zero_iff.1 (by rw [length_input, h0])
      have hzero : u.frame.fplen = 0x00#8 := by
        apply BitVec.eq_of_toNat_eq
        rw [hlength, modernPayload, if_pos h0]
        rfl
      rw [decodePayload_empty huleg hzero, hplain]
    · have hcipher : modernPayload w = cbcEnc (input w) w.key := if_neg h0
      have hnonzero : u.frame.fplen ≠ 0x00#8 := by
        intro hzero
        rw [hzero, hcipher, length_cbcEnc] at hlength
        simp at hlength
      refine decodePayload_encrypted huleg hnonzero hkey ?_
      rw [hpay, hcipher, hsame, cbcDecInvertsCbcEnc]

/-- FDATA of a built frame outputs the plaintext it was built from; the CRC is right, so no CFG matters. -/
theorem exec_fdata_built {w u : State} (hu : HoldsBuilt w.frame (builtPayload w) u.frame)
    (hfits : PlaintextFits w) (hkey : u.kvalid = true) (hsame : u.key = w.key) :
    exec .fdata u = .next (emitted (input w) (cachePlain (input w) u)) :=
  exec_fdata_decoded hu.parsed hu.uncached ((crcOk_iff u).2 (.inr hu.crc))
    (hu.payload ▸ length_builtPayload_le hfits) (decodePayload_built hu hfits hkey hsame)

/-! ## The run (43_frame.md R137) -/

/-- A state with a key, in which a frame is held with its commandType, and its plaintext is the input. -/
structure ReadyToBuild (w : State) : Prop where
  held : w.frame.fstate ≠ .empty
  command : w.frame.fcmdv = true
  dialect : w.frame.fleg = isLegacy w.frame.fpt
  fits : PlaintextFits w
  key : w.kvalid = true

/-- The state after FBUILD and MOVOI: the built frame is both the output and the input. -/
def movedBack (w : State) : State :=
  finish (taken (withCrc (builtBody w)) (emitted (withCrc (builtBody w)) w))

/-- FBUILD, MOVOI, FPARSE and FDATA return the commandType and the plaintext. -/
theorem run_build_parse {w : State} (hw : ReadyToBuild w) :
    ∃ t, run [.issue (encode .fbuild), .issue (encode .movoi), .issue (encode .fparse),
        .issue (encode .fdata)] w = some (t, [0x00#8, 0x00#8, 0x00#8, 0x00#8]) ∧
      t.frame.fcmd = w.frame.fcmd ∧ output t = input w := by
  have hbuild := exec_fbuild hw.held hw.command hw.fits
  have hmovoi := exec_movoi_emitted w ((length_builtFrame_le hw.fits).trans (by decide))
  obtain ⟨hin, -⟩ := input_taken (withCrc (builtBody w)) (emitted (withCrc (builtBody w)) w)
  obtain ⟨g, hparse, hg⟩ := exec_fparse_built (s := movedBack w) hw.dialect
    (length_builtPayload_le hw.fits) hin
  have hfdata := exec_fdata_built (u := finish (setFrame g (movedBack w))) hg hw.fits hw.key rfl
  have hend := run_issue_encode (rest := []) hfdata rfl
  exact ⟨_, run_issue_encode hbuild (run_issue_encode hmovoi (run_issue_encode hparse hend)),
    hg.command, output_emitted _ _⟩

/-- The actions that key the block, make a shell with a commandType, and load the plaintext. -/
def shellActions (keyBytes descriptor plain : List Byte) (T : Byte) : List HostAction :=
  [.load keyBytes, .issue (encode .kload), .load descriptor, .issue (encode .finit),
    .issue (encode (.fsetcmd T)), .load plain]

/-- The state they end in, with the encryptFlag and the draw count that FINIT leaves. -/
def shelled (keyBytes descriptor plain : List Byte) (T ef : Byte) (n : Nat) (s : State) : State :=
  taken plain (finish (setCommandType T (finish (setFrame (shellRegs Config.params descriptor ef)
    { taken descriptor (keyed keyBytes s) with draws := n }))))

theorem shelled_readyToBuild {keyBytes descriptor plain : List Byte} (T ef : Byte) (n : Nat) (s : State)
    (hp : if isLegacy (byteAt descriptor 0) then plain.length ≤ 127 else plain.length ≤ 111) :
    ReadyToBuild (shelled keyBytes descriptor plain T ef n s) := by
  refine ⟨nofun, rfl, rfl, ?_, rfl⟩
  change if isLegacy (byteAt descriptor 0) then plain.length ≤ 127
    else (plain.length = 0 ∨ true = true) ∧ plain.length ≤ 111
  simpa using hp

/-- A run that begins with these actions ends them in such a state, and their three STATUS codes are OK. -/
theorem run_shellActions {keyBytes descriptor plain : List Byte} (T : Byte) (s : State)
    (hk : keyBytes.length = 16) (hd : descriptor.length = 7) (hp : plain.length ≤ 127) :
    ∃ ef n, ∀ rest u codes, run rest (shelled keyBytes descriptor plain T ef n s) = some (u, codes) →
      run (shellActions keyBytes descriptor plain T ++ rest) s =
        some (u, 0x00#8 :: 0x00#8 :: 0x00#8 :: codes) := by
  have hkload : exec .kload (taken keyBytes s) = .next (keyed keyBytes s) := by
    rw [exec_kload hk, (input_taken keyBytes s).1, keyed]
  obtain ⟨ef, n, hfinit, -⟩ := finitWith_descriptor Config.params
    (nextDraw (taken descriptor (keyed keyBytes s))) (s := taken descriptor (keyed keyBytes s)) hd
  rw [(input_taken descriptor _).1] at hfinit
  refine ⟨ef, n, fun rest u codes hrest => ?_⟩
  have hplain := (run_load (by omega)).trans hrest
  have hfsetcmd := run_issue_encode (exec_fsetcmd T (nofun : FrameState.shell ≠ .empty)) hplain
  have hshell := (run_load (by omega)).trans (run_issue_encode (i := .finit) hfinit hfsetcmd)
  exact (run_load (by omega)).trans (run_issue_encode hkload hshell)

/-- Settles O56: the block is made ready to build, and the other four actions return the plaintext. -/
theorem envelopeRoundTrip : Obligations.EnvelopeRoundTrip := by
  intro s keyBytes descriptor plain T hk hd hp
  have hplain : plain.length ≤ 127 := by split at hp <;> omega
  obtain ⟨ef, n, hrun⟩ := run_shellActions T s hk hd hplain
  obtain ⟨t, hend, hfcmd, hout⟩ :=
    run_build_parse (shelled_readyToBuild (keyBytes := keyBytes) T ef n s hp)
  exact ⟨t, _, hrun _ t _ hend, rfl, hfcmd, hout.trans (input_taken plain _).1⟩

end Sys2Proof.Machine
end

section
/-!
The three control commands: the state each ends in, and what it leaves unchanged (44_control.md R141 to R143).
-/
namespace Sys2Proof.Machine

open Sys2Proof.Claims

/-! ## The state each command ends in -/

/-- NOP (44_control.md R141). -/
theorem exec_nop (s : State) : exec .nop s = .next (finish s) := rfl

/-- MOVOI of at most IBUF_CAP bytes (44_control.md R142). -/
theorem exec_movoi {s : State} (h : s.olen ≤ 256) :
    exec .movoi s = .next (finish (taken (output s) s)) :=
  movoiWith_fits Config.params s h

/-- MOVOI of more (44_control.md R142). -/
theorem exec_movoi_overlong {s : State} (h : 256 < s.olen) :
    exec .movoi s = .next (raise .invalidLength s) :=
  movoiWith_overlong Config.params s h

/-- CFGW of an image with no reserved bit set (44_control.md R143). -/
theorem exec_cfgw {imm : Byte} (h : cfgReserved imm = 0#7) (s : State) :
    exec (.cfgw imm) s = .next (finish (setConfig imm s)) :=
  if_neg (not_not.2 h)

/-- CFGW of any other image (44_control.md R143). -/
theorem exec_cfgw_reserved {imm : Byte} (h : 2 ≤ imm.toNat) (s : State) :
    exec (.cfgw imm) s = .next (raise .illegalCommand s) :=
  execCfgw_reserved h s

/-- The two images with no reserved bit set (10_state.md R23). -/
theorem cfgReserved_eq_zero {imm : Byte} (h : imm = 0x00#8 ∨ imm = 0x01#8) : cfgReserved imm = 0#7 := by
  obtain rfl | rfl := h
  · rfl
  · rfl

/-! ## The statements -/

/-- Settles O25: `finish` writes STATUS only. -/
theorem nopCompletes : Obligations.NopCompletes :=
  ⟨zeroRow_of_opcodeRow rfl, fun s =>
    ⟨_, exec_nop s, ⟨rfl, rfl⟩, keepsAllButFrame_setFrame s.frame s.draws s, rfl, rfl⟩⟩

/-- Settles O26, by whether the output fits IBUF. -/
theorem movoiCompletes : Obligations.MovoiCompletes := by
  refine ⟨zeroRow_of_opcodeRow rfl, fun s => ⟨fun hfits => ?_, fun hlong => ?_⟩⟩
  · obtain ⟨hin, habove⟩ := input_taken (output s) s
    rw [length_output] at habove
    exact ⟨_, exec_movoi hfits, ⟨rfl, rfl⟩, hin, length_output s, habove, ⟨rfl, fun _ => rfl⟩,
      ⟨rfl, rfl⟩, rfl, ⟨rfl, rfl⟩, rfl, rfl⟩
  · exact ⟨_, exec_movoi_overlong hlong, errorOnly_raise .invalidLength s⟩

/-- Settles O27, by whether the image has a reserved bit set. -/
theorem cfgwCompletes : Obligations.CfgwCompletes := by
  refine ⟨immRow_of_opcodeRow rfl, fun imm s => ⟨fun himage => ?_, fun hreserved => ?_⟩⟩
  · exact ⟨_, exec_cfgw (cfgReserved_eq_zero himage) s, ⟨rfl, rfl⟩, rfl, ⟨rfl, fun _ => rfl⟩,
      ⟨rfl, fun _ => rfl⟩, ⟨rfl, rfl⟩, ⟨rfl, rfl⟩, rfl, rfl⟩
  · exact ⟨_, exec_cfgw_reserved hreserved s, errorOnly_raise .illegalCommand s⟩

end Sys2Proof.Machine
end

section
/-!
How an error shows, and what it writes: ERRACC is 0 after a run exactly when it was 0 before and every command ended
OK (60_exceptions.md R164), and a command that ends in an error writes STATUS and ERRACC only, and FSTATE in a failed
FPARSE (60_exceptions.md R148). Both start from how one command ends.
-/
namespace Sys2Proof.Machine

open Sys2Proof.Claims

/-! ## ERRACC over a run -/

/-- After a command ERRACC is 0 exactly when it was 0 before and the command ended OK: an error sets a bit, and no
command clears one. -/
theorem Ends.noErrors_iff {s t : State} (h : Ends s t) : NoErrors t ↔ NoErrors s ∧ t.status = 0x00#8 := by
  obtain ⟨hst, herr⟩ | ⟨e, hst, herr⟩ := h
  · rw [NoErrors, NoErrors, herr]
    exact (and_iff_left hst).symm
  · have hne : t.status ≠ 0x00#8 := hst ▸ e.status_ne_ok
    have hbit : 1#16 <<< e.number ≠ 0x0000#16 := e.bit_ne_zero
    rw [NoErrors, herr, BitVec.or_eq_zero_iff]
    exact ⟨fun h0 => absurd h0.2 hbit, fun h0 => absurd h0.2 hne⟩

/-- After a host action other than RESET: only a command has an end, and the others leave ERRACC alone. -/
theorem perform_noErrors_iff {a : HostAction} {s t : State} (hreset : a ≠ .reset)
    (h : perform a s = .next t) :
    NoErrors t ↔ NoErrors s ∧ (isCommand a = true → t.status = 0x00#8) := by
  cases hc : isCommand a with
  | false => simp [NoErrors, erracc_of_perform_of_not_isCommand hreset hc h]
  | true =>
    cases a with
    | issue cw =>
      have hends : Ends s t := issueWord_ends h
      simpa using hends.noErrors_iff
    | load _ | read _ | reset => cases hc

/-- The codes a run shows: that of its first action `a`, which left the state `u`, if it is a command, then the
rest's. -/
def shownBy (a : HostAction) (u : State) (codes : List (BitVec 8)) : List (BitVec 8) :=
  if isCommand a then u.status :: codes else codes

theorem forall_mem_shownBy (p : BitVec 8 → Prop) (a : HostAction) (u : State)
    (codes : List (BitVec 8)) :
    (∀ c ∈ shownBy a u codes, p c) ↔ (isCommand a = true → p u.status) ∧ ∀ c ∈ codes, p c := by
  cases hc : isCommand a <;> simp [shownBy, hc]

/-- A run from its first action and the run of the others. -/
theorem run_cons {a : HostAction} {actions : List HostAction} {s u t : State}
    {codes : List (BitVec 8)} (hperform : perform a s = .next u)
    (hrest : run actions u = some (t, codes)) :
    run (a :: actions) s = some (t, shownBy a u codes) := by
  simp only [run, hperform, hrest, shownBy]

/-- A run without RESET ends with ERRACC = 0 exactly when it began so and every command of it ended OK, by induction on
the actions. -/
theorem run_noErrors_iff {actions : List HostAction} {s t : State} {codes : List (BitVec 8)}
    (hreset : .reset ∉ actions) (hrun : run actions s = some (t, codes)) :
    NoErrors t ↔ NoErrors s ∧ ∀ c ∈ codes, c = 0x00#8 := by
  induction actions generalizing s codes with
  | nil =>
    cases hrun
    simp
  | cons a actions ih =>
    obtain ⟨u, codes', hperform, hrest⟩ := run_cons_eq_some hrun
    cases (run_cons hperform hrest).symm.trans hrun
    simp only [List.mem_cons, not_or] at hreset
    obtain ⟨hhead, htail⟩ := hreset
    calc NoErrors t
        ↔ NoErrors u ∧ ∀ c ∈ codes', c = 0x00#8 := ih htail hrest
      _ ↔ (NoErrors s ∧ (isCommand a = true → u.status = 0x00#8)) ∧ ∀ c ∈ codes', c = 0x00#8 :=
          and_congr_left' (perform_noErrors_iff (Ne.symm hhead) hperform)
      _ ↔ NoErrors s ∧ ∀ c ∈ shownBy a u codes', c = 0x00#8 := by
          rw [and_assoc, forall_mem_shownBy]

/-- Settles O18, from `run_noErrors_iff` at a state with ERRACC = 0. -/
theorem erraccZeroMeansEveryCommandEndedOk : Obligations.ErraccZeroMeansEveryCommandEndedOk :=
  fun _ _ _ _ hreset hs hrun => (run_noErrors_iff hreset hrun).trans (and_iff_right hs)

/-! ## What an error writes -/

/-- The error end of FPARSE. -/
theorem errorDroppingFrame_raise (e : ErrorCode) (s : State) :
    ErrorDroppingFrame e.number s (raise e (dropFrame s)) :=
  ⟨⟨rfl, rfl⟩, ⟨⟨rfl, fun _ => rfl⟩, ⟨rfl, fun _ => rfl⟩, ⟨rfl, rfl⟩, rfl, rfl, rfl⟩, rfl, rfl⟩

/-- A command that does not end OK ended with `raise`, FPARSE after dropping the frame. -/
theorem After.eq_raise {c : Params} {i : Instr} {s t : State} (h : After c i s t)
    (hst : t.status ≠ statusOk) :
    ∃ e : ErrorCode, t = raise e (if i = .fparse then dropFrame s else s) := by
  cases h with
  | error e h => exact ⟨e, by rw [if_neg h]⟩
  | dropped e h => exact ⟨e, by rw [if_pos h]⟩
  | _ => exact absurd rfl hst

/-- Settles O16: the command that the word decodes to ended with `raise`, and an illegal word is ILLEGAL_COMMAND. -/
theorem errorsWriteStatusAndErraccOnly : Obligations.ErrorsWriteStatusAndErraccOnly := by
  intro cw s t h hst
  obtain ⟨i, hdecode, hi⟩ | ⟨⟨e, hdecode⟩, rfl⟩ := commandWord_cases (issueWord_eq_commandWord cw s ▸ h)
  · obtain ⟨e, rfl⟩ := hi.eq_raise hst
    obtain ⟨hlow, hhigh⟩ := e.number_bounds
    refine ⟨e.number, hlow, hhigh, ?_⟩
    by_cases hparse : i = .fparse
    · rw [if_pos (hparse ▸ hdecode), if_pos hparse]
      exact errorDroppingFrame_raise e s
    · rw [if_neg (by simp [hdecode, hparse]), if_neg hparse]
      exact errorOnly_raise e s
  · refine ⟨ErrorCode.illegalCommand.number, by decide, by decide, ?_⟩
    rw [if_neg (by simp [hdecode])]
    exact errorOnly_raise .illegalCommand s

end Sys2Proof.Machine
end

section
/-!
Every command word completes (60_exceptions.md R145): a command can stop on an output longer than OBUF only, and each
output fits where the input fits IBUF and the frame is well formed (20_memory.md R50). For all admitted parameters and
every draw.
-/
namespace Sys2Proof.Machine

/-- The result is a next state. -/
def Completes (r : Result) : Prop := ∃ t, r = .next t

theorem completes_next (t : State) : Completes (.next t) := ⟨t, rfl⟩

theorem completes_fails (e : ErrorCode) (s : State) : Completes (fails e s) := completes_next _

theorem Completes.ite {p : Prop} [Decidable p] {r r' : Result} (h : Completes r) (h' : Completes r') :
    Completes (if p then r else r') := by
  split
  · exact h
  · exact h'

section
variable {c : Params} {s : State}

/-! ## The commands with an output (20_memory.md R50) -/

theorem ldecsWith_completes (hin : s.ilen ≤ c.obufCap) : Completes (ldecsWith c s) :=
  (completes_fails _ s).ite (finishWith_completes c _ s (by simp; omega))

/-- The padding adds one block at most, for which OBUF has room (00_scope.md R6; 42_aes.md R111). -/
theorem aesencWith_completes (hin : s.ilen + 16 ≤ c.obufCap) : Completes (aesencWith c s) :=
  (completes_fails _ s).ite (finishWith_completes c _ s (by rw [length_cbcEnc, length_input]; omega))

theorem aesdecWith_completes (hin : s.ilen ≤ c.obufCap) : Completes (aesdecWith c s) := by
  refine (completes_fails _ s).ite ?_
  split
  · exact completes_fails _ s
  · next p hdec =>
    have hshort := length_le_of_cbcDec _ _ _ hdec
    rw [length_input] at hshort
    exact finishWith_completes c p s (by omega)

/-- The cached and the decoded payload are of the widths that the frame invariants give (10_state.md R36). -/
theorem fdataWith_completes (hframe : FrameOk s.frame) (hcap : 127 ≤ c.obufCap) :
    Completes (fdataWith c s) := by
  obtain ⟨hpay, hplain⟩ := FrameOk.length_le s.frame hframe
  refine (completes_fails _ s).ite (.ite (finishWith_completes c _ s (by omega))
    ((completes_fails _ s).ite ?_))
  split
  · exact completes_fails _ s
  · next p hdec =>
    have hshort := length_le_of_decodePayload s p hdec
    exact finishWith_completes c p _ (by omega)

/-- The frame without its CRC byte is at most 133 bytes: 12 and 112, or 6 and 127. -/
theorem length_frameBody_le {body : List Byte} (h : frameBody s = .ok body) : body.length ≤ 133 := by
  cases hleg : s.frame.fleg with
  | true =>
    obtain ⟨p, rfl, hp⟩ := frameBody_legacy hleg h
    simp [legacyPrefix]
    omega
  | false =>
    obtain ⟨p, rfl, hp⟩ := frameBody_modern hleg h
    simp [modernPrefix]
    omega

theorem fbuildWith_completes (hcap : 134 ≤ c.obufCap) : Completes (fbuildWith c s) := by
  refine (completes_fails _ s).ite ?_
  split
  · exact completes_fails _ s
  · next body hbody =>
    have hshort := length_frameBody_le hbody
    exact finishWith_completes c _ s (by simp; omega)

/-! ## The other commands with a check -/

theorem movoiWith_completes : Completes (movoiWith c s) := by
  unfold movoiWith
  split
  · exact completes_fails _ s
  · exact completes_next _

theorem fparseWith_completes : Completes (fparseWith c s) := by
  unfold fparseWith
  split
  · exact completes_fails _ _
  · exact completes_next _

/-! ## Every command -/

/-- Every command completes where the input fits IBUF and the frame is well formed. -/
theorem command_completes (draw : Fin 127) (i : Instr) (hc : c.Admitted) (hin : s.ilen ≤ c.ibufCap)
    (hframe : FrameOk s.frame) : Completes (command c draw i s) := by
  obtain ⟨hibuf, hobuf⟩ := hc
  cases i with
  | nop | kclr => exact completes_next _
  | crc8 | crclut imm => exact finishWith_completes c _ s (by simp; omega)
  | lenc imm | ldec imm => exact finishWith_completes c _ s (by simp; omega)
  | lencr => exact finishWith_completes c _ (consumeDraw s) (by simp; omega)
  | ldecs => exact ldecsWith_completes (by omega)
  | aesenc => exact aesencWith_completes (by omega)
  | aesdec => exact aesdecWith_completes (by omega)
  | fdata => exact fdataWith_completes hframe (by omega)
  | fbuild => exact fbuildWith_completes (by omega)
  | movoi => exact movoiWith_completes
  | fparse => exact fparseWith_completes
  | finit => exact (completes_fails _ s).ite ((completes_next _).ite (completes_next _))
  | kload | fsetcmd imm | fsetef imm | cfgw imm => exact (completes_fails _ s).ite (completes_next _)

/-- Every command word completes: an illegal one ends in an error. -/
theorem commandWord_completes (draw : Fin 127) (cw : CommandWord) (hc : c.Admitted)
    (hbuffers : BuffersOk c s) (hframe : FrameOk s.frame) : Completes (commandWord c draw cw s) := by
  obtain ⟨hin, -⟩ := hbuffers
  unfold commandWord
  cases decode cw with
  | ok i => exact command_completes draw i hc hin hframe
  | error e => exact completes_fails _ s

end

/-- Settles O15: both clauses are `commandWord_completes`, `issueWord` being the block at `Config.params`. -/
theorem everyCommandWordCompletes : Obligations.EveryCommandWordCompletes := by
  refine ⟨fun c draw cw s hc hbuffers hframe => ?_, fun cw s hbuffers hframe => ?_⟩
  · obtain ⟨t, ht⟩ := commandWord_completes draw cw hc hbuffers hframe
    exact ⟨t, (blockStep_eq_next c draw cw s t _).2 ⟨ht, rfl⟩⟩
  · rw [issueWord_eq_commandWord]
    exact commandWord_completes (nextDraw s) cw (by decide) hbuffers hframe

end Sys2Proof.Machine
end

section
/-!
RESET, the state it restores, and the wait for a host action (70_reset_and_hazards.md R165 to R167; LOG 2, 20).
-/
namespace Sys2Proof.Machine

/-! ## RESET (70_reset_and_hazards.md R165, R166; LOG 20) -/

/-- READ shows none of the three fields that are no registers: the pending actions, the last reply and the
count of draws. -/
theorem readReg_hostSide (c : Params) (r : RegName) (s : State) (port : List HostAction)
    (reply : Option RegValue) (draws : Nat) :
    readReg c r { s with port := port, reply := reply, draws := draws } = readReg c r s := by
  cases r <;> rfl

/-- Settles O10: the step is the RESET, whose state differs from the reset state in the host's side only. -/
theorem resetActionRestoresEveryRegister : Obligations.ResetActionRestoresEveryRegister := by
  intro s rest hport
  have hstep : step s =
      .next { State.reset with port := rest, reply := s.reply, draws := s.draws } :=
    step_of_port_cons s .reset rest hport
  exact ⟨_, hstep, fun r => readReg_hostSide Config.params r State.reset rest s.reply s.draws,
    rfl, rfl, rfl⟩

/-! ## The reset column (10_state.md R19) -/

/-- An empty buffer reads as the reset contents. -/
@[simp] theorem Memory.read_nil (a : Nat) : Memory.read [] a = 0x00#8 := rfl

theorem toBytes_zeroBlock : Block.toBytes zeroBlock = List.replicate 16 0x00#8 := rfl

/-- Settles O11: both buffers are empty and the key is the zero block; every other register is a field of the
reset state at its reset value. -/
theorem resetStateHoldsTheResetColumn : Obligations.ResetStateHoldsTheResetColumn := by
  refine ⟨Memory.read_nil, ?ilen, Memory.read_nil, ?olen, toBytes_zeroBlock, ?registers⟩
  case ilen | olen => rfl
  case registers => and_intros <;> rfl

/-! ## Waiting (70_reset_and_hazards.md R167; LOG 2) -/

/-- Settles O12. -/
theorem stepWithNothingPendingWaits : Obligations.StepWithNothingPendingWaits :=
  step_of_port_nil

end Sys2Proof.Machine
end
